-- ==== Sys2Proof/Word.lean ====
section
/-! DEFINITION. The two value types every channel carries: the byte (00_scope.md R11, 20_memory.md R61) and the
normalized analog sample (10_state.md R35). -/

namespace Sys2Proof

/-- `u8` of 00_scope.md R11: eight bits, addition wraps modulo 256. -/
abbrev Byte := BitVec 8

/-- A sample: an exact rational in the closed interval [0, 1] (10_state.md R35, 92_eei_decisions.md D24), held as a
fraction in lowest terms so that equal samples are equal data. A value outside the interval cannot be built
(93_implementation_defined.md U23). -/
structure Sample where
  num : Nat
  den : Nat
  den_pos : 0 < den
  le_one : num ≤ den
  lowest : Nat.gcd num den = 1
  deriving DecidableEq, Repr

/-- The samples 0 and 1. -/
def Sample.zero : Sample := ⟨0, 1, by decide, by decide, by decide⟩

def Sample.one : Sample := ⟨1, 1, by decide, by decide, by decide⟩

/-- The fraction `n / d` as a sample; a pair that is no number of [0, 1] gives 0. Used to write samples down. -/
def Sample.ofFrac (n d : Nat) : Sample :=
  if h : 0 < d ∧ n ≤ d then
    ⟨n / Nat.gcd n d, d / Nat.gcd n d,
      Nat.div_pos (Nat.gcd_le_right _ h.1) (Nat.gcd_pos_of_pos_right _ h.1),
      Nat.div_le_div_right h.2, Nat.gcd_div_gcd_div_gcd_of_pos_right h.1⟩
  else Sample.zero

end Sys2Proof
end

