-- ==== Sys2Proof/Config.lean ====
section
/-! DEFINITION. What is fixed before the first step: the constants the spec fixes, the profile record `P` of
00_scope.md R8 and R9, the two test profiles of 95_test_vectors.md, and the free values (constants without a body). -/

namespace Sys2Proof

/-! ## Constants the spec fixes (00_scope.md R9, status "fixed") -/

namespace Config

/-- `SYNC_BUDGET`. -/
def syncBudget : Nat := 32
/-- `DEGRADED_TAG`. -/
def degradedTag : Byte := 0x10
/-- `SENTINEL0`. -/
def sentinel0 : Byte := 0xDE
/-- `SENTINEL1`. -/
def sentinel1 : Byte := 0xAD
/-- `FLUSH_CHUNK`. -/
def flushChunk : Nat := 4
/-- `FLUSH_EMPTY`, which is also what an exhausted device answers (20_memory.md R85). -/
def flushEmpty : Byte := 0xFF
/-- `CMD_SIG_LO`, ASCII 'l' (30_encoding.md R91; the number is 93_implementation_defined.md G1). -/
def cmdSigLo : Byte := 0x6C
/-- `CMD_SIG_HI`, ASCII 'h'. -/
def cmdSigHi : Byte := 0x68
/-- `CMD_CAM`, ASCII 'c'. -/
def cmdCam : Byte := 0x63

end Config

/-! ## The profile `P` -/

/-- `CAM_U16_ORDER`: how a reader of the report combines two relayed bytes; the engine never does (20_memory.md R71). -/
inductive U16Order where
  | little
  | big
  deriving DecidableEq, Repr

/-- `CKSUM_SCOPE`: only FULL is specified (92_eei_decisions.md D7); `other` stands for any scope that is refused. -/
inductive CksumScope where
  | full
  | other
  deriving DecidableEq, Repr

/-- `OFF_DIRECT`, `OFF_WRAPPED`: the payload index of the first byte of each of the four fields. -/
structure Offsets where
  x : Nat
  y : Nat
  w : Nat
  h : Nat
  deriving DecidableEq, Repr

/-- The profile `P` (00_scope.md R9): every parameter the spec leaves OPEN, under the spec's names. Durations are
numbers of an unnamed unit, since the model has no time (20_memory.md R68). -/
structure Profile where
  hdr1 : Byte
  hdr2 : Byte
  hasAlgo : Bool
  cmdOk : Byte
  cmdWrapped : Byte
  cmdDirect : Byte
  txKnock : List Byte
  hasAlgsel : Bool
  txAlgsel : List Byte
  txReqblk : List Byte
  offDirect : Offsets
  offWrapped : Offsets
  camAddr : Nat
  camU16Order : U16Order
  signalScale : Nat
  signalReportCk : Bool
  blockReportCk : Bool
  flushMax : Nat
  tClkSettle : Nat
  tAdcSettle : Nat
  tInterch : Nat
  tTxSettle : Nat
  dirTxLevel : Bool
  muxResetActive : Bool
  muxAdvActive : Bool
  cksumScope : CksumScope
  deriving DecidableEq, Repr

namespace Config

/-- Test profile `TP0` of 95_test_vectors.md section 0, invented by the spec. The fields it leaves symbolic hold
numbers of this model's choosing (DESIGN CHOICE, log 8). -/
def tp0 : Profile where
  hdr1 := 0xC3
  hdr2 := 0x3C
  hasAlgo := true
  cmdOk := 0x20
  cmdWrapped := 0x21
  cmdDirect := 0x22
  txKnock := [0xC3, 0x3C, 0x30, 0x01, 0x00, 0x30]
  hasAlgsel := true
  txAlgsel := [0xC3, 0x3C, 0x31, 0x01, 0x01, 0x01, 0x33]
  txReqblk := [0xC3, 0x3C, 0x32, 0x01, 0x00, 0x32]
  offDirect := ⟨0, 2, 4, 6⟩
  offWrapped := ⟨1, 3, 5, 7⟩
  camAddr := 0
  camU16Order := .little
  signalScale := 127
  signalReportCk := true
  blockReportCk := true
  flushMax := 32
  tClkSettle := 5
  tAdcSettle := 3
  tInterch := 2
  tTxSettle := 1
  dirTxLevel := true
  muxResetActive := true
  muxAdvActive := true
  cksumScope := .full

/-- Test profile `TP1` of 95_test_vectors.md section 0. DESIGN CHOICE (log 8): `TX_ALGSEL`, which that table calls unused, holds
`TP0`'s bytes; without `HAS_ALGSEL` no operation writes them. -/
def tp1 : Profile :=
  { tp0 with
    hasAlgo := false
    hasAlgsel := false
    txKnock := [0xC3, 0x3C, 0x30, 0x00, 0x2F]
    txReqblk := [0xC3, 0x3C, 0x32, 0x00, 0x31]
    signalScale := 128
    signalReportCk := false
    blockReportCk := false }

/-! ## Free values

Constants without a body: no proof can tell what they are. 10_state.md R50 says most registers are "unwritten" after
reset and must not read as zero; each such register holds one of these after reset (log 9). -/

/-- A register, or an element of a register array, that 10_state.md R50 leaves unwritten at reset. -/
inductive Unwritten where
  | mode | haltCause | dir | muxReset | muxAdv
  | cmd | resp (i : Nat) | respLen
  | att | acc | fCmd | fAlg | fLen | idx | pay (i : Nat) | ckrx | ckok
  | fl (i : Nat) | flN | blk (i : Nat) | blkValid
  | s (i : Nat) | k | idxmax | mag | freq
  | muxPulses
  deriving DecidableEq, Repr

opaque unwrittenByte : Unwritten → Byte
opaque unwrittenBool : Unwritten → Bool
opaque unwrittenNat : Unwritten → Nat

/-- The level of the direction pin after a restoring `PinSet` that itself failed (93_implementation_defined.md U24),
one value for each use of the counter `fresh`. -/
opaque freeLevel : Nat → Bool

/-- The two parts of the free sample that the analog input answers when no answer of it is laid down (20_memory.md R67). -/
opaque freeNum : Nat → Nat
opaque freeDen : Nat → Nat

/-- The free sample for the use `n` of the counter: any sample at all, as far as a proof can tell. -/
def freeSample (n : Nat) : Sample := Sample.ofFrac (freeNum n) (freeDen n)

end Config

end Sys2Proof
end

