-- ==== Sys2Proof/Syntax.lean ====
section
/-! DEFINITION. The operations of the engine, whole: one constructor of `Instr` per row of spec/opcode_table.json, in
the table's order ("instruction" means an operation of the engine, 00_scope.md R14), and the types of their operands. -/

namespace Sys2Proof

/-- The three output pins (20_memory.md R66). -/
inductive Pin where
  | dir
  | muxReset
  | muxAdv
  deriving DecidableEq, Repr

/-- The kinds of `CamFault` (20_memory.md R64). -/
inductive CamFaultKind where
  | noResponse
  | zeroLength
  | busError
  deriving DecidableEq, Repr

/-- The causes of `Fatal` (00_scope.md R13, 10_state.md R27). -/
inductive FatalCause where
  | uplink
  | gpio
  | clock
  | analog
  deriving DecidableEq, Repr

/-- The opaque tag of a `Diag` event (20_memory.md R69); the one tag the spec places is `Unrecognized(CMD)` (46_arbiter.md R225). -/
inductive DiagTag where
  | unrecognized (cmd : Byte)
  deriving DecidableEq, Repr

/-- The sync-error codes; no other exists (30_encoding.md R99). -/
inductive SyncCode where
  | h1
  | h2
  deriving DecidableEq, Repr

/-- The frame record of 10_state.md R32. -/
structure Frame where
  command : Byte
  algorithm : Option Byte
  length : Byte
  payload : List Byte
  checksumReceived : Byte
  checksumOk : Bool
  deriving DecidableEq, Repr

/-- `FrameResult` of 43_framer.md R151. -/
inductive FrameResult where
  | ok (f : Frame)
  | syncError (code : SyncCode)
  deriving DecidableEq, Repr

/-- `FlushResult` of 44_flusher.md R180. -/
inductive FlushResult where
  | drained (n : Nat)
  | exhausted
  deriving DecidableEq, Repr

/-- The eight extracted bytes of a block, in the order x, y, width, height (10_state.md R34). -/
abbrev Block := Vector Byte 8

/-- The operations of the engine (spec/opcode_table.json, one row each). A row with an encoding carries what its words
hold; a row of format "internal" carries the operands its rule names. -/
inductive Instr where
  -- the uplink commands, format U1 (30_encoding.md R91)
  | sigLo
  | sigHi
  | camData
  | unrecognized (cmd : Byte)
  -- the response classes, format CF.command (30_encoding.md R102)
  | respOk
  | respNotOk (cmd : Byte)
  | respWrapped
  | respDirect
  | respUnknown (cmd : Byte)
  -- the camera frame, format CF (30_encoding.md R94)
  | cameraFrame (command : Byte) (algorithm : Option Byte) (payload : List Byte) (ck : Byte)
  -- the sentinels, format SN (30_encoding.md R99)
  | sentinelH1
  | sentinelH2
  -- the flusher chunks, format FC (30_encoding.md R100)
  | chunkEmpty
  | chunkData (b0 b1 b2 b3 : Byte)
  -- the request frames, format TX (30_encoding.md R101)
  | txKnock
  | txAlgsel
  | txReqblk
  -- the reports, formats SR and BR (30_encoding.md R92, R93)
  | signalReport (index : BitVec 3) (freq : Bool) (mag : BitVec 7) (ck : Option Byte)
  | blockReport (b : Block) (ck : Option Byte)
  -- internal operations: checksum (40_checksum.md)
  | checksum (s : List Byte)
  | accStep (b : Byte)
  | ckValidate
  -- scanner (41_scanner.md)
  | scan
  | muxResetPulse
  | muxAdvancePulse
  | settle
  | sample
  -- selector (42_selector.md)
  | select (freq : Bool)
  | argmax
  | rescale (v : Sample)
  | pack (freq : Bool)
  | signal (freq : Bool)
  -- framer (43_framer.md)
  | frameDecode
  | searchH1
  | searchH2
  | readCmd
  | readAlgo
  | readLen
  | readPayload
  | readCk
  | tagDegraded
  | result
  | sentinelBytes (code : SyncCode)
  -- flusher (44_flusher.md)
  | flush
  -- camera protocol (45_camera_protocol.md)
  | knock
  | algsel
  | handshake
  | requestBlocks
  | extract (f : Frame) (off : Offsets)
  | blockReportBuild (b : Option Block)
  | cameraData
  -- arbiter (46_arbiter.md)
  | arbLoop
  | setRx
  | waitCmd
  | setTx
  | dispatch
  | writeResp
  | txSettle
  | fatalStop (c : FatalCause)
  -- primitives (20_memory.md R62 to R69)
  | upRead
  | upWrite (s : List Byte)
  | camRead (n : Nat)
  | camWrite (s : List Byte)
  | pinSet (pin : Pin) (level : Bool)
  | analogRead
  | sleep (d : Nat)
  | diag (e : DiagTag)
  deriving DecidableEq, Repr

end Sys2Proof
end

