-- ==== Sys2Proof/Decode.lean ====
section
/-! DEFINITION. The byte formats of 30_encoding.md: the decoder, total on any bytes, and the encoder. The engine has no
instruction memory (20_memory.md R82); a word is a byte sequence together with the format it travels in, since the
format is never marked in the bytes (30_encoding.md R90, R95). -/

namespace Sys2Proof

/-! ## Helpers shared with the machine -/

/-- `CHECKSUM` (40_checksum.md R120): the sum of the bytes modulo 256, accumulated from 0. -/
def checksum (s : List Byte) : Byte := s.foldl (fun acc b => acc + b) 0

/-- Byte 1 of the signal report (30_encoding.md R106): the frequency flag in bit 7, the magnitude in bits 6:0. -/
def packByte1 (mag : BitVec 7) (freq : Bool) : Byte := BitVec.ofBool freq ++ mag

/-- `covers(f, off)` of 45_camera_protocol.md R202 for a payload of `len` bytes: both bytes of every field lie inside. -/
def Offsets.coveredBy (off : Offsets) (len : Nat) : Bool :=
  off.x + 1 < len && off.y + 1 < len && off.w + 1 < len && off.h + 1 < len

/-- The rendering of a sync-error code (30_encoding.md R99). -/
def SyncCode.byte : SyncCode → Byte
  | .h1 => 0x01
  | .h2 => 0x02

/-- What an uplink command byte selects; all eight bits are compared (30_encoding.md R91, 46_arbiter.md R225). -/
inductive UplinkCmd where
  | sigLo
  | sigHi
  | camData
  | unrecognized
  deriving DecidableEq, Repr

def uplinkCmd (b : Byte) : UplinkCmd :=
  if b = Config.cmdSigLo then .sigLo
  else if b = Config.cmdSigHi then .sigHi
  else if b = Config.cmdCam then .camData
  else .unrecognized

/-- How a response to a block request is taken: wrapped is tested first (45_camera_protocol.md R198). -/
inductive ResponseClass where
  | wrapped
  | direct
  | unknown
  deriving DecidableEq, Repr

def responseClass (P : Profile) (command : Byte) : ResponseClass :=
  if command = P.cmdWrapped then .wrapped
  else if command = P.cmdDirect then .direct
  else .unknown

/-! ## Words -/

/-- The formats of 30_encoding.md R90. The command byte of a camera frame is read in one of two contexts (R102). -/
inductive Format where
  | u1
  | respHandshake
  | respRequest
  | cf
  | sn
  | fc
  | tx
  | sr
  | br
  deriving DecidableEq, Repr

/-- Why bytes are no word of a format. -/
inductive Reject where
  | wrongLength (f : Format)
  | noHeader1
  | noHeader2
  | frameTooShort
  | frameTooLong
  | notSentinel
  | notSignalReport
  | notRequestFrame
  deriving DecidableEq, Repr

/-- What the decoder answers. -/
inductive Decoded where
  | ok (i : Instr)
  | reject (why : Reject)
  deriving DecidableEq, Repr

def Decoded.toOption : Decoded → Option Instr
  | .ok i => some i
  | .reject _ => none

/-- Format `U1`: every byte decodes; the default row is tried last (30_encoding.md R103, R105). -/
def decodeU1 (b : Byte) : Instr :=
  match uplinkCmd b with
  | .sigLo => .sigLo
  | .sigHi => .sigHi
  | .camData => .camData
  | .unrecognized => .unrecognized b

/-- The command of a response after knock or select (30_encoding.md R102). -/
def decodeHandshakeResponse (P : Profile) (command : Byte) : Instr :=
  if command = P.cmdOk then .respOk else .respNotOk command

/-- The command of a response to a block request (30_encoding.md R102, 45_camera_protocol.md R198). -/
def decodeRequestResponse (P : Profile) (command : Byte) : Instr :=
  match responseClass P command with
  | .wrapped => .respWrapped
  | .direct => .respDirect
  | .unknown => .respUnknown command

/-- The bytes from the length byte on: length, payload, checksum, and nothing after it (30_encoding.md R94, R96). -/
def decodeTail (command : Byte) (algorithm : Option Byte) : List Byte → Decoded
  | [] => .reject .frameTooShort
  | len :: rest =>
    match rest.drop len.toNat with
    | [] => .reject .frameTooShort
    | [ck] => .ok (.cameraFrame command algorithm (rest.take len.toNat) ck)
    | _ :: _ :: _ => .reject .frameTooLong

/-- The bytes after the two headers. The profile alone says whether an algorithm byte stands there (30_encoding.md R95). -/
def decodeDescriptor (P : Profile) : List Byte → Decoded
  | [] => .reject .frameTooShort
  | command :: rest =>
    if P.hasAlgo then
      match rest with
      | [] => .reject .frameTooShort
      | algorithm :: rest => decodeTail command (some algorithm) rest
    else decodeTail command none rest

/-- Format `CF`: a well-formed camera frame, headers adjacent (30_encoding.md R94). -/
def decodeCF (P : Profile) : List Byte → Decoded
  | h1 :: h2 :: rest =>
    if h1 ≠ P.hdr1 then .reject .noHeader1
    else if h2 ≠ P.hdr2 then .reject .noHeader2
    else decodeDescriptor P rest
  | _ => .reject .frameTooShort

/-- Format `SN` (30_encoding.md R99). -/
def decodeSN : List Byte → Decoded
  | [a, b, c] =>
    if a = Config.sentinel0 ∧ b = Config.sentinel1 then
      if c = SyncCode.h1.byte then .ok .sentinelH1
      else if c = SyncCode.h2.byte then .ok .sentinelH2
      else .reject .notSentinel
    else .reject .notSentinel
  | _ => .reject (.wrongLength .sn)

/-- Format `FC`: the one pattern, then the default row (30_encoding.md R100). -/
def decodeFC : List Byte → Decoded
  | [a, b, c, d] =>
    if a = Config.flushEmpty ∧ b = Config.flushEmpty ∧ c = Config.flushEmpty ∧ d = Config.flushEmpty then .ok .chunkEmpty
    else .ok (.chunkData a b c d)
  | _ => .reject (.wrongLength .fc)

/-- Format `TX`: one of the three request frames of the profile; the select frame exists only when `HAS_ALGSEL` (30_encoding.md R101). -/
def decodeTX (P : Profile) (bs : List Byte) : Decoded :=
  if bs = P.txKnock then .ok .txKnock
  else if P.hasAlgsel ∧ bs = P.txAlgsel then .ok .txAlgsel
  else if bs = P.txReqblk then .ok .txReqblk
  else .reject .notRequestFrame

/-- Format `SR` (30_encoding.md R92): bits 7:3 of byte 0 are 0; the third byte is there or not by the profile.
The engine emits this format and never decodes it: that a word of either length is read, whatever the profile, is this
model's choice (DESIGN CHOICE, log 38). -/
def decodeSR : List Byte → Decoded
  | a :: b :: rest =>
    if a.extractLsb' 3 5 ≠ 0 then .reject .notSignalReport
    else
      let index := a.extractLsb' 0 3
      let freq := b.getLsbD 7
      let mag := b.extractLsb' 0 7
      match rest with
      | [] => .ok (.signalReport index freq mag none)
      | [ck] => .ok (.signalReport index freq mag (some ck))
      | _ :: _ :: _ => .reject (.wrongLength .sr)
  | _ => .reject (.wrongLength .sr)

/-- Format `BR` (30_encoding.md R93): eight block bytes and, by the profile, a checksum byte. The engine never
decodes it either: both lengths are read (DESIGN CHOICE, log 38). -/
def decodeBR : List Byte → Decoded
  | [a, b, c, d, e, f, g, h] => .ok (.blockReport #v[a, b, c, d, e, f, g, h] none)
  | [a, b, c, d, e, f, g, h, ck] => .ok (.blockReport #v[a, b, c, d, e, f, g, h] (some ck))
  | _ => .reject (.wrongLength .br)

/-- The decoder: total on any bytes of any format, rejecting by name. -/
def decode (P : Profile) (fmt : Format) (bs : List Byte) : Decoded :=
  match fmt with
  | .u1 => match bs with
    | [b] => .ok (decodeU1 b)
    | _ => .reject (.wrongLength .u1)
  | .respHandshake => match bs with
    | [b] => .ok (decodeHandshakeResponse P b)
    | _ => .reject (.wrongLength .respHandshake)
  | .respRequest => match bs with
    | [b] => .ok (decodeRequestResponse P b)
    | _ => .reject (.wrongLength .respRequest)
  | .cf => decodeCF P bs
  | .sn => decodeSN bs
  | .fc => decodeFC bs
  | .tx => decodeTX P bs
  | .sr => decodeSR bs
  | .br => decodeBR bs

/-! ## The encoder -/

/-- The word of an instruction, written from the same tables; an internal operation has none (30_encoding.md R105). -/
def encode (P : Profile) : Instr → Option (Format × List Byte)
  | .sigLo => some (.u1, [Config.cmdSigLo])
  | .sigHi => some (.u1, [Config.cmdSigHi])
  | .camData => some (.u1, [Config.cmdCam])
  | .unrecognized cmd => some (.u1, [cmd])
  | .respOk => some (.respHandshake, [P.cmdOk])
  | .respNotOk cmd => some (.respHandshake, [cmd])
  | .respWrapped => some (.respRequest, [P.cmdWrapped])
  | .respDirect => some (.respRequest, [P.cmdDirect])
  | .respUnknown cmd => some (.respRequest, [cmd])
  | .cameraFrame command algorithm payload ck =>
    some (.cf, [P.hdr1, P.hdr2, command] ++ algorithm.toList ++ [BitVec.ofNat 8 payload.length] ++ payload ++ [ck])
  | .sentinelH1 => some (.sn, [Config.sentinel0, Config.sentinel1, SyncCode.h1.byte])
  | .sentinelH2 => some (.sn, [Config.sentinel0, Config.sentinel1, SyncCode.h2.byte])
  | .chunkEmpty => some (.fc, [Config.flushEmpty, Config.flushEmpty, Config.flushEmpty, Config.flushEmpty])
  | .chunkData a b c d => some (.fc, [a, b, c, d])
  | .txKnock => some (.tx, P.txKnock)
  | .txAlgsel => some (.tx, P.txAlgsel)
  | .txReqblk => some (.tx, P.txReqblk)
  | .signalReport index freq mag ck => some (.sr, [index.setWidth 8, packByte1 mag freq] ++ ck.toList)
  | .blockReport b ck => some (.br, b.toList ++ ck.toList)
  | .checksum _ | .accStep _ | .ckValidate
  | .scan | .muxResetPulse | .muxAdvancePulse | .settle | .sample
  | .select _ | .argmax | .rescale _ | .pack _ | .signal _
  | .frameDecode | .searchH1 | .searchH2 | .readCmd | .readAlgo | .readLen | .readPayload | .readCk
  | .tagDegraded | .result | .sentinelBytes _ | .flush
  | .knock | .algsel | .handshake | .requestBlocks | .extract _ _ | .blockReportBuild _ | .cameraData
  | .arbLoop | .setRx | .waitCmd | .setTx | .dispatch | .writeResp | .txSettle | .fatalStop _
  | .upRead | .upWrite _ | .camRead _ | .camWrite _ | .pinSet _ _ | .analogRead | .sleep _ | .diag _ => none

/-- `encode_frame(cmd, algo, pay)` of 30_encoding.md R101: a camera frame with its right checksum. The spec
defines it for `len(pay) <= 255`; DESIGN CHOICE (log 40): beyond that the length byte is taken modulo 256. -/
def encodeFrame (P : Profile) (cmd algo : Byte) (pay : List Byte) : List Byte :=
  let b := [P.hdr1, P.hdr2, cmd] ++ (if P.hasAlgo then [algo] else []) ++ [BitVec.ofNat 8 pay.length] ++ pay
  b ++ [checksum b]

/-! ## The opcode table's numbering -/

/-- The `n` bytes of the number `w`, most significant first. -/
def bytesMsbFirst : Nat → Nat → List Byte
  | 0, _ => []
  | n + 1, w => BitVec.ofNat 8 (w / 256 ^ n) :: bytesMsbFirst n w

/-- The word that `w`, a number of `nbits` bits, stands for in spec/opcode_table.json. The table reads the bytes of a row
as one number, the first byte the most significant (SENTINEL_H1 is 0xDEAD01; log 16). The width tells the format, but for
three bytes, where 0xDE can only open a sentinel. -/
def tableWord (nbits w : Nat) : Format × List Byte :=
  let bs := bytesMsbFirst (nbits / 8) w
  match nbits / 8 with
  | 1 => (.u1, bs)
  | 2 => (.sr, bs)
  | 3 => (if bs.head? = some Config.sentinel0 then .sn else .sr, bs)
  | 4 => (.fc, bs)
  | 8 => (.br, bs)
  | 9 => (.br, bs)
  | _ => (.cf, bs)

/-- The instruction the decoder reads from a row's word. The formats the table gives bits do not depend on the profile. -/
def decodeTableWord (nbits w : Nat) : Option Instr :=
  (decode Config.tp0 (tableWord nbits w).1 (tableWord nbits w).2).toOption

end Sys2Proof
end

