-- ==== Sys2Proof/WellFormed.lean ====
section
/-! DEFINITION. Well-formedness: the checks of 00_scope.md R10 on a profile, and the domains that the rules give the
operands of an operation. -/

namespace Sys2Proof

/-- The profile checks (a) to (d) of 00_scope.md R10, and the one checksum scope that is not refused
(92_eei_decisions.md D7). A profile that fails is refused, not run. -/
def Profile.wf (P : Profile) : Bool :=
  P.offDirect.coveredBy 255 && P.offWrapped.coveredBy 255
  && P.txKnock ≠ [] && P.txReqblk ≠ [] && (!P.hasAlgsel || P.txAlgsel ≠ [])
  && decide (1 ≤ P.flushMax)
  && (P.signalScale = 127 || P.signalScale = 128)
  && P.cksumScope = .full

/-- The lengths `UpWrite` is called with (20_memory.md R63). -/
def upWriteLength (n : Nat) : Bool := n = 2 || n = 3 || n = 8 || n = 9

/-- The widths `CamRead` is called with (20_memory.md R64). -/
def camReadWidth (n : Nat) : Bool := n = 1 || n = 4

/-- A report's checksum byte stands exactly when the profile says so, and is the sum of the bytes before it
(30_encoding.md R92, R93). -/
def reportCkFits (present : Bool) (bytes : List Byte) (ck : Option Byte) : Bool :=
  ck = if present then some (checksum bytes) else none

/-- The operands an operation may have under the profile `P`. A default row excludes the values of the rows tried
before it; where two rows of a profile coincide, the later one stands for no word of its own (70_reset_and_hazards.md R293). -/
def Instr.wellFormed (P : Profile) : Instr → Bool
  | .sigLo | .sigHi | .camData => true
  | .unrecognized cmd => uplinkCmd cmd = .unrecognized
  | .respOk => true
  | .respNotOk cmd => cmd ≠ P.cmdOk
  | .respWrapped => true
  | .respDirect => responseClass P P.cmdDirect = .direct
  | .respUnknown cmd => responseClass P cmd = .unknown
  | .cameraFrame _ algorithm payload _ => algorithm.isSome = P.hasAlgo && payload.length ≤ 255
  | .sentinelH1 | .sentinelH2 | .chunkEmpty => true
  | .chunkData a b c d =>
    !(a = Config.flushEmpty && b = Config.flushEmpty && c = Config.flushEmpty && d = Config.flushEmpty)
  | .txKnock => true
  | .txAlgsel => P.hasAlgsel && P.txAlgsel ≠ P.txKnock
  | .txReqblk => P.txReqblk ≠ P.txKnock && (!P.hasAlgsel || P.txReqblk ≠ P.txAlgsel)
  | .signalReport index freq mag ck => reportCkFits P.signalReportCk [index.setWidth 8, packByte1 mag freq] ck
  | .blockReport b ck => reportCkFits P.blockReportCk b.toList ck
  | .checksum _ | .accStep _ | .ckValidate => true
  | .scan | .muxResetPulse | .muxAdvancePulse | .settle | .sample => true
  | .select _ | .argmax | .rescale _ | .pack _ | .signal _ => true
  | .frameDecode | .searchH1 | .searchH2 | .readCmd => true
  | .readAlgo => P.hasAlgo
  | .readLen | .readPayload | .readCk | .tagDegraded | .result | .sentinelBytes _ => true
  | .flush | .knock => true
  | .algsel => P.hasAlgsel
  | .handshake | .requestBlocks => true
  | .extract f off => f.payload.length = f.length.toNat && off.coveredBy f.length.toNat
  | .blockReportBuild _ | .cameraData => true
  | .arbLoop | .setRx | .waitCmd | .setTx | .dispatch | .writeResp | .txSettle | .fatalStop _ => true
  | .upRead => true
  | .upWrite s => upWriteLength s.length
  | .camRead n => camReadWidth n
  | .camWrite s => s ≠ []
  | .pinSet _ _ | .analogRead | .sleep _ | .diag _ => true

end Sys2Proof
end

