-- ==== Sys2Proof/Machine/State.lean ====
section
/-! DEFINITION. The state of the engine (10_state.md R20), as plain data, grouped as the spec groups it; the answers its
environment has ready (00_scope.md R15); the trace (20_memory.md R70); the reasons a step can stop; and reset (R50). -/

namespace Sys2Proof.Machine

/-! ## Phase registers (10_state.md R23) and modes (R25) -/

/-- `ARB_PH`. -/
inductive ArbPh where
  | setRx | waitCmd | setTx | dispatch | write | settle | halted
  deriving DecidableEq, Repr

/-- `FRM_PH`. -/
inductive FrmPh where
  | idle | h1 | h2 | cmd | algo | len | pay | ck | done
  deriving DecidableEq, Repr

/-- `CCP_PH`. -/
inductive CcpPh where
  | idle | knockTx | knockRx | algTx | algRx | reqTx | reqRx | nestRx | flush | done
  deriving DecidableEq, Repr

/-- `SCN_PH`. -/
inductive ScnPh where
  | idle | reset | adv | settleClk | settleAdc | sample | interch | done
  deriving DecidableEq, Repr

/-- `MODE`, the bus-ownership state. -/
inductive Mode where
  | receive | transmit
  deriving DecidableEq, Repr

/-! ## Register groups -/

/-- Group (b) of 10_state.md R20, the arbiter's registers, with `ARB_PH`. -/
structure Arbiter where
  ph : ArbPh
  mode : Mode
  cmd : Byte
  resp : Vector Byte 9
  respLen : Nat
  halt : Bool
  haltCause : FatalCause
  deriving DecidableEq, Repr

/-- Group (c), the output pin levels. -/
structure Pins where
  dir : Bool
  muxReset : Bool
  muxAdv : Bool
  deriving DecidableEq, Repr

/-- Group (d), the framer's registers, with `FRM_PH`. `res` is `none` while the current decode has no result yet
(log 12). -/
structure Framer where
  ph : FrmPh
  att : Nat
  acc : Byte
  cmd : Byte
  alg : Byte
  len : Byte
  idx : Nat
  pay : Vector Byte 255
  ckrx : Byte
  ckok : Bool
  res : Option FrameResult
  deriving DecidableEq, Repr

/-- Group (e), the flusher's registers `FL` and `FL_N`. -/
structure Flusher where
  chunk : Vector Byte 4
  n : Nat
  deriving DecidableEq, Repr

/-- Group (f), the camera protocol's registers, with `CCP_PH`. -/
structure Camera where
  ph : CcpPh
  blk : Block
  blkValid : Bool
  deriving DecidableEq, Repr

/-- Group (g), the scanner's and selector's registers, with `SCN_PH`. `half` is the model's own: it says that the first
of the two `PinSet` calls of a pulse has been made (log 15). -/
structure Scanner where
  ph : ScnPh
  s : Vector Sample 8
  k : Fin 8
  idxmax : Fin 8
  mag : BitVec 7
  freq : Bool
  half : Bool
  deriving DecidableEq, Repr

/-! ## The environment -/

/-- An answer of the HOST to `UpRead` (20_memory.md R62). -/
inductive UpAnswer where
  | byte (b : Byte)
  | fatal
  deriving DecidableEq, Repr

/-- A fault of a camera read: its kind, and how many bytes of the camera's buffer went before it, which no rule says and
the engine never sees (93_implementation_defined.md U25; log 6). -/
structure CamReadFault where
  kind : CamFaultKind
  lost : Nat
  deriving DecidableEq, Repr

/-- The kinds of fault a camera write can answer: `ZeroLength` is not among them (20_memory.md R65). -/
inductive CamWriteFault where
  | noResponse
  | busError
  deriving DecidableEq, Repr

def CamWriteFault.kind : CamWriteFault → CamFaultKind
  | .noResponse => .noResponse
  | .busError => .busError

/-- An answer of the analog input (20_memory.md R67). -/
inductive AdcAnswer where
  | sample (v : Sample)
  | fatal
  deriving DecidableEq, Repr

/-- What the environment will answer, laid down as data (00_scope.md R15; log 4). Each call of a primitive takes the
first entry of its list. `up`: the HOST's bytes; empty, the HOST is silent. `upWr`, `pin`, `clk`: whether the call
raises `Fatal`; empty, it does not. `camBuf`: the bytes the camera will deliver; empty, it answers 0xFF. `camRd`,
`camWr`: whether the transaction faults; empty, it does not. `adc`: samples; empty, a free sample. `muxPulses`: the
hidden position counter of the multiplexer, in advance pulses since its last reset pulse (10_state.md R41 (c), log 23). -/
structure Env where
  up : List UpAnswer
  upWr : List Bool
  camBuf : List Byte
  camRd : List (Option CamReadFault)
  camWr : List (Option CamWriteFault)
  adc : List AdcAnswer
  pin : List Bool
  clk : List Bool
  muxPulses : Nat
  deriving DecidableEq, Repr

/-- The event alphabet of 20_memory.md R70. -/
inductive Event where
  | upRead (b : Byte)
  | upWrite (s : List Byte)
  | camRead (n : Nat) (bytes : List Byte)
  | camWrite (s : List Byte)
  | camFault (k : CamFaultKind)
  | pin (p : Pin) (level : Bool)
  | analog (v : Sample)
  | sleep (d : Nat)
  | diag (e : DiagTag)
  | fatal (c : FatalCause)
  deriving DecidableEq, Repr

/-! ## The model's own fields -/

/-- The value an operation last returned to its caller (00_scope.md R13; log 3). -/
inductive Ret where
  | unit
  | byte (b : Byte)
  | bytes (s : List Byte)
  | bool (b : Bool)
  | index (i : Fin 8)
  | mag (m : BitVec 7)
  | sample (v : Sample)
  | block (b : Option Block)
  | flush (r : FlushResult)
  | frame (r : FrameResult)
  deriving DecidableEq, Repr

/-- An operation called from outside the sequencer (log 2): a word to be decoded, or an operation by its name. -/
inductive Call where
  | word (fmt : Format) (bytes : List Byte)
  | op (i : Instr)
  deriving DecidableEq, Repr

/-! ## State -/

/-- The state: the profile in force (a parameter, never written: 00_scope.md R8, log 8), groups (a) to (h) of
10_state.md R20, the environment, the trace (newest event first, log 24), and the model's own `fresh` (counter of free
values used), `ret`, `call`, and `stopping`: the cause of a `Fatal` that has been raised in TRANSMIT, while the restoring
`PinSet` of `FATAL_STOP` is the call that is due (46_arbiter.md R232, 00_scope.md R16; log 35). -/
structure State where
  profile : Profile
  connected : Bool
  arb : Arbiter
  pins : Pins
  frm : Framer
  flu : Flusher
  ccp : Camera
  scn : Scanner
  env : Env
  trace : List Event
  fresh : Nat
  ret : Ret
  call : Option Call
  stopping : Option FatalCause
  deriving DecidableEq, Repr

/-! Named updates, one per field; Laws/State.lean says what each leaves alone. -/

def State.setConnected (s : State) (b : Bool) : State := { s with connected := b }
def State.setArb (s : State) (a : Arbiter) : State := { s with arb := a }
def State.setPins (s : State) (p : Pins) : State := { s with pins := p }
def State.setFrm (s : State) (f : Framer) : State := { s with frm := f }
def State.setFlu (s : State) (f : Flusher) : State := { s with flu := f }
def State.setCcp (s : State) (c : Camera) : State := { s with ccp := c }
def State.setScn (s : State) (c : Scanner) : State := { s with scn := c }
def State.setEnv (s : State) (e : Env) : State := { s with env := e }
def State.setFresh (s : State) (n : Nat) : State := { s with fresh := n }
def State.setRet (s : State) (r : Ret) : State := { s with ret := r }
def State.setCall (s : State) (c : Option Call) : State := { s with call := c }
def State.setStopping (s : State) (c : Option FatalCause) : State := { s with stopping := c }

/-- Append one event to the trace (20_memory.md R70). -/
def State.log (s : State) (e : Event) : State := { s with trace := e :: s.trace }

/-- The trace in call order. -/
def State.events (s : State) : List Event := s.trace.reverse

/-! ## Stops -/

/-- Why the machine stops. -/
inductive Fault where
  /-- Raised by `step` when `HALT` is true: the engine has no step until reset (10_state.md R27, 46_arbiter.md R232;
  93_implementation_defined.md U7 treats it as a fault). Safe. -/
  | halted
  /-- Raised by `UpRead` in TRANSMIT: its precondition is `MODE = RECEIVE` and the half-duplex invariant forbids the
  call (20_memory.md R62, 46_arbiter.md R220). No run of the sequencer reaches it. Safe. -/
  | readWhileTransmit
  /-- Raised by `UpWrite` in RECEIVE (20_memory.md R63, 46_arbiter.md R220). No run of the sequencer reaches it. Safe. -/
  | writeWhileReceive
  /-- Raised by `EXTRACT` of a field that lies outside the received payload: the element is unwritten for that decode
  and must not be read (10_state.md R30, 93_implementation_defined.md U20). No run of the sequencer reaches it. Safe. -/
  | unwrittenRead
  /-- Raised by `step` where the phase registers name no point of the fixed call tree (10_state.md R24). No run of the
  sequencer reaches it. Safe. -/
  | noPosition
  deriving DecidableEq, Repr

/-- Why a step is refused. -/
inductive Refusal where
  /-- Raised by an arm of `exec` whose instruction has no meaning yet. Safe. -/
  | notModelled (mnemonic : String)
  /-- Raised by `step` when the profile fails the checks of 00_scope.md R10: "a profile that fails is refused, not run". Safe. -/
  | profileRejected
  /-- Raised by `step` when the bytes called from outside are no word of their format. Safe. -/
  | undecodable (why : Reject)
  /-- Raised by `UpWrite`, `CamRead` and `CamWrite` for an operand outside the domain their rules give
  (20_memory.md R63, R64, R65). No run of the sequencer reaches it. Safe. -/
  | operandOutOfDomain
  deriving DecidableEq, Repr

/-! ## Reset -/

open Config in
/-- The environment with nothing laid down: a silent HOST, an exhausted device, no fault to come. -/
def Env.quiet : Env where
  up := []
  upWr := []
  camBuf := []
  camRd := []
  camWr := []
  adc := []
  pin := []
  clk := []
  muxPulses := unwrittenNat .muxPulses

/-- A register whose value 10_state.md R50 leaves unwritten and whose type is an enumeration of two. -/
def Mode.ofBool : Bool → Mode
  | false => .receive
  | true => .transmit

def causeOfNat (n : Nat) : FatalCause :=
  match n % 4 with
  | 0 => .uplink
  | 1 => .gpio
  | 2 => .clock
  | _ => .analog

/-- `n` unwritten bytes. -/
def unwrittenBytes (n : Nat) (reg : Nat → Config.Unwritten) : Vector Byte n :=
  ⟨((List.range n).map fun i => Config.unwrittenByte (reg i)).toArray, by simp⟩

/-- An unwritten sample: any sample. -/
def unwrittenSample (i : Nat) : Sample :=
  Sample.ofFrac (Config.unwrittenNat (.s (2 * i))) (Config.unwrittenNat (.s (2 * i + 1)))

open Config in
/-- The state right after reset under a profile, with an environment (10_state.md R50, 70_reset_and_hazards.md R281):
`CONNECTED` and `HALT` false, `ARB_PH` at `A_SET_RX`, the sub-phases idle, no result, and every other register at a free
value, since R50 leaves it unwritten (log 9). -/
def State.resetWith (P : Profile) (env : Env) : State where
  profile := P
  connected := false
  arb :=
    { ph := .setRx
      mode := Mode.ofBool (unwrittenBool .mode)
      cmd := unwrittenByte .cmd
      resp := unwrittenBytes 9 .resp
      respLen := unwrittenNat .respLen % 10
      halt := false
      haltCause := causeOfNat (unwrittenNat .haltCause) }
  pins := ⟨unwrittenBool .dir, unwrittenBool .muxReset, unwrittenBool .muxAdv⟩
  frm :=
    { ph := .idle
      att := unwrittenNat .att % 33
      acc := unwrittenByte .acc
      cmd := unwrittenByte .fCmd
      alg := unwrittenByte .fAlg
      len := unwrittenByte .fLen
      idx := unwrittenNat .idx % 256
      pay := unwrittenBytes 255 .pay
      ckrx := unwrittenByte .ckrx
      ckok := unwrittenBool .ckok
      res := none }
  flu := ⟨unwrittenBytes 4 .fl, unwrittenNat .flN % (P.flushMax + 1)⟩
  ccp := ⟨.idle, unwrittenBytes 8 .blk, unwrittenBool .blkValid⟩
  scn :=
    { ph := .idle
      s := ⟨((List.range 8).map unwrittenSample).toArray, by simp⟩
      k := Fin.ofNat 8 (unwrittenNat .k)
      idxmax := Fin.ofNat 8 (unwrittenNat .idxmax)
      mag := BitVec.ofNat 7 (unwrittenNat .mag)
      freq := unwrittenBool .freq
      half := false }
  env := env
  trace := []
  fresh := 0
  ret := .unit
  call := none
  stopping := none

/-- The machine right after reset. The profile is fixed before the first step by a start-up that is out of scope; here
it is the spec's test profile `TP0`, and nothing is laid down for the environment (DESIGN CHOICE, log 8 and 4). -/
def State.reset : State := State.resetWith Config.tp0 Env.quiet

end Sys2Proof.Machine
end

