-- ==== Sys2Proof/Machine/Flags.lean ====
section
/-! DEFINITION. The conditions the engine computes (10_state.md R38; it has no arithmetic condition codes): the checksum
compare, the degraded tag, response matching, coverage of the offsets, and the selector's arithmetic. -/

namespace Sys2Proof.Machine

/-- `CKOK` (40_checksum.md R124): equality means good; the comparison is not inverted. -/
def ckMatches (ckrx acc : Byte) : Bool := ckrx = acc

/-- The degraded tag: an addition modulo 256 (30_encoding.md R98). -/
def degrade (command : Byte) : Byte := command + Config.degradedTag

/-- `matches(r, code)` of 45_camera_protocol.md R191: all eight bits of the command, which may be a tagged one;
`checksum_ok` is not consulted; false for a sync error. -/
def matchesCode (r : FrameResult) (code : Byte) : Bool :=
  match r with
  | .ok f => f.command = code
  | .syncError _ => false

/-- `covers(f, off)` of 45_camera_protocol.md R202. -/
def covers (f : Frame) (off : Offsets) : Bool := off.coveredBy f.length.toNat

/-- Strict comparison of two samples, exact (42_selector.md R141). -/
def sampleGt (a b : Sample) : Bool := b.num * a.den < a.num * b.den

/-- The left-to-right scan of 42_selector.md R141 over the channels `ks`, from the index `i`. -/
def argmaxFrom (v : Vector Sample 8) (i : Fin 8) : List (Fin 8) → Fin 8
  | [] => i
  | k :: ks => argmaxFrom v (if sampleGt v[k] v[i] then k else i) ks

/-- Channels 1 to 7, in order. -/
def laterChannels : List (Fin 8) := [1, 2, 3, 4, 5, 6, 7]

/-- `ARGMAX(S)`: the smallest index achieving the maximum. -/
def argmaxOf (v : Vector Sample 8) : Fin 8 := argmaxFrom v 0 laterChannels

/-- The linear rescale before the mask, `floor(v * SCALE)`, exact (42_selector.md R142; log 21). -/
def rescaleRaw (scale : Nat) (v : Sample) : Nat := v.num * scale / v.den

/-- `RESCALE(v)`: masked to 7 bits (42_selector.md R142, R143). -/
def rescaleOf (scale : Nat) (v : Sample) : BitVec 7 := BitVec.ofNat 7 (rescaleRaw scale v)

/-- The chunk test of 44_flusher.md R181: all four bytes 0xFF. -/
def chunkIsEmpty (c : List Byte) : Bool := c.all fun b => b = Config.flushEmpty

end Sys2Proof.Machine
end

