-- ==== Sys2Proof/Machine/Operands.lean ====
section
/-! DEFINITION. Operand forms: sequences written into and read from the register arrays, the fields of a block, the
report byte forms, and the bytes an exhausted device adds. -/

namespace Sys2Proof.Machine

/-! ## What the environment answers to the next call (log 4) -/

/-- The first entry of a list of answers; with none laid down, the call completes. -/
def firstRaises : List Bool → Bool
  | [] => false
  | b :: _ => b

def firstFault {α : Type} : List (Option α) → Option α
  | [] => none
  | f :: _ => f

/-- The next `PinSet` raises `Fatal(Gpio)`. -/
def Env.pinFails (e : Env) : Bool := firstRaises e.pin

/-- The next `Sleep` raises `Fatal(Clock)`. -/
def Env.clkFails (e : Env) : Bool := firstRaises e.clk

/-- The next `UpWrite` raises `Fatal(Uplink)`. -/
def Env.upWrFails (e : Env) : Bool := firstRaises e.upWr

/-- The fault of the next `CamRead`, if it has one. -/
def Env.camRdFault (e : Env) : Option CamReadFault := firstFault e.camRd

/-- The fault of the next `CamWrite`, if it has one. -/
def Env.camWrFault (e : Env) : Option CamWriteFault := firstFault e.camWr

/-! ## Sequences, fields, reports -/

/-- Write a sequence into a register array from index `i` on; elements beyond the array do not exist. -/
def writeFrom {n : Nat} (v : Vector Byte n) (i : Nat) : List Byte → Vector Byte n
  | [] => v
  | b :: bs => writeFrom (v.setIfInBounds i b) (i + 1) bs

/-- The first `k` elements of a register array: `RESP[0 .. k-1]`, `PAY[0 .. k-1]`. -/
def firstBytes {n : Nat} (v : Vector Byte n) (k : Nat) : List Byte := v.toList.take k

/-- `n` bytes from the front of a device's buffer, 0xFF where it is exhausted (20_memory.md R85). -/
def takeFilled (n : Nat) (buf : List Byte) : List Byte := (buf ++ List.replicate n Config.flushEmpty).take n

/-- The eight bytes of the four fields at `off`, in the order x, y, width, height, copied and not swapped
(45_camera_protocol.md R201); none where one of them lies outside the payload. -/
def blockAt (payload : List Byte) (off : Offsets) : Option Block :=
  match payload[off.x]?, payload[off.x + 1]?, payload[off.y]?, payload[off.y + 1]?,
    payload[off.w]?, payload[off.w + 1]?, payload[off.h]?, payload[off.h + 1]? with
  | some a, some b, some c, some d, some e, some f, some g, some h => some #v[a, b, c, d, e, f, g, h]
  | _, _, _, _, _, _, _, _ => none

/-- A sequence followed by its checksum when `ck` says so (42_selector.md R144, 45_camera_protocol.md R203). -/
def withChecksum (ck : Bool) (s : List Byte) : List Byte := if ck then s ++ [checksum s] else s

/-- `PACK`: bytes 0 and 1 of the signal report (42_selector.md R145). -/
def packReport (index : Fin 8) (mag : BitVec 7) (freq : Bool) : List Byte :=
  [BitVec.ofNat 8 index.val, packByte1 mag freq]

/-- Format `SR` (30_encoding.md R92). -/
def signalReportBytes (P : Profile) (index : Fin 8) (mag : BitVec 7) (freq : Bool) : List Byte :=
  withChecksum P.signalReportCk (packReport index mag freq)

/-- `BLOCK_REPORT(b)` (45_camera_protocol.md R203): the block with its local checksum, or all zero. -/
def blockReportBytes (P : Profile) : Option Block → List Byte
  | some b => withChecksum P.blockReportCk b.toList
  | none => List.replicate (if P.blockReportCk then 9 else 8) 0

/-- A u16 field as a reader of the report forms it (30_encoding.md R107); the engine never does. -/
def fieldValue (P : Profile) (first second : Byte) : Nat :=
  match P.camU16Order with
  | .little => first.toNat + 256 * second.toNat
  | .big => 256 * first.toNat + second.toNat

/-- `SENTINEL_BYTES(code)` (43_framer.md R163). -/
def sentinelBytesOf (code : SyncCode) : List Byte := [Config.sentinel0, Config.sentinel1, code.byte]

/-- `RESP <- bs; RESP_LEN <- len(bs)` (46_arbiter.md R225). DESIGN CHOICE (log 36): the elements of `RESP` from `RESP_LEN` on,
of which 10_state.md R26 says nothing, keep what an earlier response left there. -/
def loadResp (bs : List Byte) (s : State) : State :=
  s.setArb { s.arb with resp := writeFrom s.arb.resp 0 bs, respLen := bs.length }

/-- `RESP[0 .. RESP_LEN-1]`. -/
def respBytes (s : State) : List Byte := firstBytes s.arb.resp s.arb.respLen

/-- The level a pin register takes (20_memory.md R66). -/
def Pins.drive (p : Pins) (pin : Pin) (level : Bool) : Pins :=
  match pin with
  | .dir => { p with dir := level }
  | .muxReset => { p with muxReset := level }
  | .muxAdv => { p with muxAdv := level }

end Sys2Proof.Machine
end

