-- ==== Sys2Proof/Machine/Ops.lean ====
section
/-! DEFINITION. The shared operations: what a primitive call can end in, the primitives of 20_memory.md R62 to R69, and
the two exceptions that are taken (60_exceptions.md R259): `Fatal`, by `FATAL_STOP`, and `CamFault`, by DeviceAbsent. -/

namespace Sys2Proof.Machine

/-! ## Effects -/

/-- What an operation ends in: a value returned to its caller; an exception (00_scope.md R13); a wait for the HOST; a stop. -/
inductive Eff (α : Type) where
  | ok (a : α) (s : State)
  | camFault (k : CamFaultKind) (s : State)
  | fatal (c : FatalCause) (s : State)
  | blocked (s : State)
  | stop (f : Fault)

/-- One operation after another; an exception, a wait or a stop passes through (each call completes before the next
begins, 20_memory.md R79). -/
def Eff.andThen {α β : Type} (m : Eff α) (f : α → State → Eff β) : Eff β :=
  match m with
  | .ok a s => f a s
  | .camFault k s => .camFault k s
  | .fatal c s => .fatal c s
  | .blocked s => .blocked s
  | .stop f => .stop f

/-! ## Primitives -/

/-- `UpRead` (20_memory.md R62): blocks while the HOST is silent; takes exactly one byte. -/
def upRead (s : State) : Eff Byte :=
  if s.arb.mode = .transmit then .stop .readWhileTransmit
  else
    match s.env.up with
    | [] => .blocked s
    | .byte b :: rest => .ok b ((s.setEnv { s.env with up := rest }).log (.upRead b))
    | .fatal :: rest => .fatal .uplink ((s.setEnv { s.env with up := rest }).log (.fatal .uplink))

/-- `UpWrite(bs)` (20_memory.md R63). -/
def upWrite (bs : List Byte) (s : State) : Eff Unit :=
  if s.arb.mode = .receive then .stop .writeWhileReceive
  else
    let s' := s.setEnv { s.env with upWr := s.env.upWr.tail }
    if s.env.upWrFails then .fatal .uplink (s'.log (.fatal .uplink))
    else .ok () (s'.log (.upWrite bs))

/-- `CamRead(n)` (20_memory.md R64): exactly `n` bytes, or a fault, before which some bytes of the buffer may have gone (log 6). -/
def camRead (n : Nat) (s : State) : Eff (List Byte) :=
  match s.env.camRdFault with
  | some f =>
    .camFault f.kind ((s.setEnv { s.env with camRd := s.env.camRd.tail, camBuf := s.env.camBuf.drop f.lost }).log
      (.camFault f.kind))
  | none =>
    .ok (takeFilled n s.env.camBuf)
      ((s.setEnv { s.env with camRd := s.env.camRd.tail, camBuf := s.env.camBuf.drop n }).log
        (.camRead n (takeFilled n s.env.camBuf)))

/-- `next()` of 43_framer.md R150: `CamRead(1)[0]`. -/
def nextByte (s : State) : Eff Byte :=
  (camRead 1 s).andThen fun bs s => .ok (bs.headD Config.flushEmpty) s

/-- `CamWrite(bs)` (20_memory.md R65). -/
def camWrite (bs : List Byte) (s : State) : Eff Unit :=
  let s' := s.setEnv { s.env with camWr := s.env.camWr.tail }
  match s.env.camWrFault with
  | some f => .camFault f.kind (s'.log (.camFault f.kind))
  | none => .ok () (s'.log (.camWrite bs))

/-- `PinSet(pin, level)` (20_memory.md R66). A failing call leaves the level register alone (log 22). -/
def pinSet (pin : Pin) (level : Bool) (s : State) : Eff Unit :=
  let s' := s.setEnv { s.env with pin := s.env.pin.tail }
  if s.env.pinFails then .fatal .gpio (s'.log (.fatal .gpio))
  else .ok () ((s'.setPins (s.pins.drive pin level)).log (.pin pin level))

/-- `AnalogRead()` (20_memory.md R67): a laid-down answer, or a free sample (log 7). -/
def analogRead (s : State) : Eff Sample :=
  match s.env.adc with
  | [] => .ok (Config.freeSample s.fresh) ((s.setFresh (s.fresh + 1)).log (.analog (Config.freeSample s.fresh)))
  | .sample v :: rest => .ok v ((s.setEnv { s.env with adc := rest }).log (.analog v))
  | .fatal :: rest => .fatal .analog ((s.setEnv { s.env with adc := rest }).log (.fatal .analog))

/-- `Sleep(d)` (20_memory.md R68): an event and nothing else. -/
def sleep (d : Nat) (s : State) : Eff Unit :=
  let s' := s.setEnv { s.env with clk := s.env.clk.tail }
  if s.env.clkFails then .fatal .clock (s'.log (.fatal .clock))
  else .ok () (s'.log (.sleep d))

/-- `Diag(e)` (20_memory.md R69): never fails and touches nothing but the trace. -/
def diag (e : DiagTag) (s : State) : Eff Unit := .ok () (s.log (.diag e))

/-! ## Taking an exception -/

/-- The restoring `PinSet` of `FATAL_STOP`: best effort. When it fails too, that failure is swallowed and the pin's
level is unknown (46_arbiter.md R232, 93_implementation_defined.md U24; log 11). -/
def restoreDir (s : State) : State :=
  let s' := s.setEnv { s.env with pin := s.env.pin.tail }
  if s.env.pinFails then
    ((s'.setPins (s.pins.drive .dir (Config.freeLevel s.fresh))).setFresh (s.fresh + 1)).log (.fatal .gpio)
  else (s'.setPins (s.pins.drive .dir (!s.profile.dirTxLevel))).log (.pin .dir (!s.profile.dirTxLevel))

/-- `FATAL_STOP(c)` (46_arbiter.md R232): restore RECEIVE if in TRANSMIT, then latch the halt and its cause. -/
def takeFatal (c : FatalCause) (s : State) : State :=
  let s := match s.arb.mode with
    | .transmit => (restoreDir s).setArb { s.arb with mode := .receive }
    | .receive => s
  s.setArb { s.arb with halt := true, haltCause := c, ph := .halted }

/-- DeviceAbsent (60_exceptions.md R253, R259): `CONNECTED` is cleared and control goes to the end of `CAMERA_DATA`,
which returns a zero report. It is how every `CamFault` is taken, and a failed handshake. -/
def takeAbsent (s : State) : State := (s.setConnected false).setCcp { s.ccp with ph := .done }

/-- The report that DeviceAbsent makes `CAMERA_DATA` return (45_camera_protocol.md R205). -/
def absentReport (s : State) : List Byte := blockReportBytes s.profile none

/-! ## From an effect to the outcome of an operation -/

/-- The outcome of an operation that returns nothing. A `Fatal` is taken by `FATAL_STOP`; a `CamFault` is taken by
DeviceAbsent, whose zero report is what is returned; a wait leaves the engine where it waits (log 5, 14). -/
def Eff.close (m : Eff Unit) : Host.Outcome State Fault Refusal :=
  match m with
  | .ok _ s => .next s
  | .camFault _ s => .next ((takeAbsent s).setRet (.bytes (absentReport s)))
  | .fatal c s => .next (takeFatal c s)
  | .blocked s => .next s
  | .stop f => .fault f

/-- The outcome of an operation that returns a value to its caller. -/
def Eff.answer {α : Type} (m : Eff α) (f : α → Ret) : Host.Outcome State Fault Refusal :=
  (m.andThen fun a s => .ok () (s.setRet (f a))).close

end Sys2Proof.Machine
end

