-- ==== Sys2Proof/Machine/Flusher.lean ====
section
/-! DEFINITION. BufferFlusher (44_flusher.md). -/

namespace Sys2Proof.Machine

/-- `FL_N <- 0`. -/
def flushStart (s : State) : State := s.setFlu { s.flu with n := 0 }

/-- `FL[0..3] <- c; FL_N <- FL_N + 1`. -/
def storeChunk (c : List Byte) (s : State) : State :=
  s.setFlu { chunk := writeFrom s.flu.chunk 0 c, n := s.flu.n + 1 }

/-- The loop's test (R181): another chunk is read only while `FL_N < FLUSH_MAX`, so that `FL_N` never leaves the range of
10_state.md R33. -/
abbrev flushReadsOn (s : State) : Prop := s.flu.n < s.profile.flushMax

/-- What a stored chunk does: an empty one ends the flush, the bound ends it too, any other makes it read on (R181 to R183). -/
def chunkVerdict (c : List Byte) (s : State) : Option FlushResult :=
  if chunkIsEmpty c then some (.drained s.flu.n)
  else if flushReadsOn s then none
  else some .exhausted

/-- One pass of the loop of R181, its test included: one transaction of four bytes, or, at the bound, none. -/
def stepFlush (s : State) : Eff (Option FlushResult) :=
  if flushReadsOn s then
    (camRead Config.flushChunk s).andThen fun c s => .ok (chunkVerdict c (storeChunk c s)) (storeChunk c s)
  else .ok (some .exhausted) s

/-- The loop of R181 over at most `n` more chunks. -/
def flushLoop : Nat → State → Eff FlushResult
  | 0, s => .ok .exhausted s
  | n + 1, s =>
    (stepFlush s).andThen fun r s =>
      match r with
      | some r => .ok r s
      | none => flushLoop n s

/-- `FLUSH`, R181. -/
def flush (s : State) : Eff FlushResult := flushLoop s.profile.flushMax (flushStart s)

/-- `FLUSH`, R180, R181. -/
def execFlush (s : State) : Host.Outcome State Fault Refusal := (flush s).answer .flush

end Sys2Proof.Machine
end

