-- ==== Sys2Proof/Machine/Checksum.lean ====
section
/-! DEFINITION. FrameChecksum (40_checksum.md). -/

namespace Sys2Proof.Machine

/-- `ACC_STEP(b)`, R123. -/
def accStep (b : Byte) (s : State) : State := s.setFrm { s.frm with acc := s.frm.acc + b }

/-- `CK_VALIDATE`, R124. -/
def ckValidate (s : State) : State := s.setFrm { s.frm with ckok := ckMatches s.frm.ckrx s.frm.acc }

/-- `CHECKSUM(bs)`, R120: pure; the sum is returned. -/
def execChecksum (bs : List Byte) (s : State) : Host.Outcome State Fault Refusal := .next (s.setRet (.byte (checksum bs)))

/-- `ACC_STEP(b)`, R123. -/
def execAccStep (b : Byte) (s : State) : Host.Outcome State Fault Refusal := .next (accStep b s)

/-- `CK_VALIDATE`, R124. -/
def execCkValidate (s : State) : Host.Outcome State Fault Refusal := .next (ckValidate s)

end Sys2Proof.Machine
end

