-- ==== Sys2Proof/Machine/Framer.lean ====
section
/-! DEFINITION. CameraLinkSync, the byte framer (43_framer.md). Each phase has the update one byte makes; the operation
of the phase repeats it as the rule's loop does. -/

namespace Sys2Proof.Machine

def setFrmPh (ph : FrmPh) (s : State) : State := s.setFrm { s.frm with ph := ph }

/-! ## Header search (R152 to R156) -/

/-- The start of a decode: `ACC <- 0; ATT <- 0`, phase `F_H1` (R152). The decode has no result yet (log 12). -/
def frameStart (s : State) : State := s.setFrm { s.frm with ph := .h1, acc := 0, att := 0, res := none }

/-- The abort of a search: `RES <- SyncError(code); goto F_DONE` (R152, R154). -/
def syncAbort (code : SyncCode) (s : State) : State :=
  s.setFrm { s.frm with ph := .done, res := some (.syncError code) }

/-- `H1_FOUND`, R153, and the entry to `F_H2` with its own budget (R154). -/
def h1Found (s : State) : State := (accStep s.profile.hdr1 s).setFrm { (accStep s.profile.hdr1 s).frm with ph := .h2, att := 0 }

/-- `H2_FOUND`, R156. -/
def h2Found (s : State) : State := setFrmPh .cmd (accStep s.profile.hdr2 s)

/-- `ATT <- ATT + 1`. -/
def countAttempt (s : State) : State := s.setFrm { s.frm with att := s.frm.att + 1 }

/-- What one byte does in `F_H1` (R152). -/
def takeH1 (b : Byte) (s : State) : State :=
  if b = s.profile.hdr1 then h1Found (countAttempt s)
  else if (countAttempt s).frm.att = Config.syncBudget then syncAbort .h1 (countAttempt s)
  else countAttempt s

/-- What one byte does in `F_H2` (R154, R155): a byte that is not `HDR2` is skipped, whatever it is, and not summed. -/
def takeH2 (b : Byte) (s : State) : State :=
  if b = s.profile.hdr2 then h2Found (countAttempt s)
  else if (countAttempt s).frm.att = Config.syncBudget then syncAbort .h2 (countAttempt s)
  else countAttempt s

def stepH1 (s : State) : Eff Unit := (nextByte s).andThen fun b s => .ok () (takeH1 b s)

def stepH2 (s : State) : Eff Unit := (nextByte s).andThen fun b s => .ok () (takeH2 b s)

/-- The loop of R152 over at most `n` more reads. -/
def searchH1Loop : Nat → State → Eff Unit
  | 0, s => .ok () s
  | n + 1, s => (stepH1 s).andThen fun _ s => if s.frm.ph = .h1 then searchH1Loop n s else .ok () s

/-- The loop of R154 over at most `n` more reads. -/
def searchH2Loop : Nat → State → Eff Unit
  | 0, s => .ok () s
  | n + 1, s => (stepH2 s).andThen fun _ s => if s.frm.ph = .h2 then searchH2Loop n s else .ok () s

/-- `SEARCH_H1`, R152. -/
def searchH1 (s : State) : Eff Unit := searchH1Loop Config.syncBudget (frameStart s)

/-- `SEARCH_H2`, R154: the counter starts again from 0. -/
def searchH2 (s : State) : Eff Unit :=
  searchH2Loop Config.syncBudget (s.setFrm { s.frm with ph := .h2, att := 0 })

/-! ## Descriptor (R157 to R159) -/

/-- `F_CMD <- b`, summed; the profile alone says what follows (R157). -/
def takeCmd (b : Byte) (s : State) : State :=
  accStep b (s.setFrm { s.frm with cmd := b, ph := if s.profile.hasAlgo then .algo else .len })

/-- `F_ALG <- b`, summed (R158). -/
def takeAlgo (b : Byte) (s : State) : State := accStep b (s.setFrm { s.frm with alg := b, ph := .len })

/-- `F_LEN <- b`, summed; `IDX <- 0` (R159). -/
def takeLen (b : Byte) (s : State) : State :=
  accStep b (s.setFrm { s.frm with len := b, idx := 0, ph := if b = 0 then .ck else .pay })

/-- `READ_CMD`, R157. -/
def readCmd (s : State) : Eff Unit := (nextByte s).andThen fun b s => .ok () (takeCmd b s)

/-- `READ_ALGO`, R158: skipped, with no byte read, when `HAS_ALGO` is false. -/
def readAlgo (s : State) : Eff Unit :=
  if s.profile.hasAlgo then (nextByte s).andThen fun b s => .ok () (takeAlgo b s) else .ok () (setFrmPh .len s)

/-- `READ_LEN`, R159. -/
def readLen (s : State) : Eff Unit := (nextByte s).andThen fun b s => .ok () (takeLen b s)

/-! ## Payload (R160) -/

/-- `PAY[IDX] <- b`, summed; `IDX <- IDX + 1`; `F_CK` after the last. -/
def takePayload (b : Byte) (s : State) : State :=
  accStep b (s.setFrm { s.frm with
    pay := s.frm.pay.setIfInBounds s.frm.idx b
    idx := s.frm.idx + 1
    ph := if s.frm.idx + 1 < s.frm.len.toNat then s.frm.ph else .ck })

def stepPayload (s : State) : Eff Unit := (nextByte s).andThen fun b s => .ok () (takePayload b s)

/-- The loop of R160 over at most `n` more bytes. -/
def payloadLoop : Nat → State → Eff Unit
  | 0, s => .ok () s
  | n + 1, s =>
    if s.frm.idx < s.frm.len.toNat then (stepPayload s).andThen fun _ s => payloadLoop n s else .ok () s

/-- `READ_PAYLOAD`, R160. -/
def readPayload (s : State) : Eff Unit :=
  (payloadLoop (s.frm.len.toNat - s.frm.idx) s).andThen fun _ s => .ok () (setFrmPh .ck s)

/-! ## Checksum and result (R161 to R163) -/

/-- `READ_CK`, R161: the byte is not summed; the compare follows at once. -/
def readCk (s : State) : Eff Unit :=
  (nextByte s).andThen fun b s => .ok () (ckValidate (s.setFrm { s.frm with ckrx := b }))

/-- `TAG_DEGRADED`, R161: a mismatch tags the command; nothing else of the frame is changed. Then `F_DONE`. -/
def tagDegraded (s : State) : State :=
  s.setFrm { s.frm with cmd := if s.frm.ckok then s.frm.cmd else degrade s.frm.cmd, ph := .done }

/-- The frame record read from the registers (R162, 10_state.md R32). -/
def frameOf (s : State) : Frame where
  command := s.frm.cmd
  algorithm := if s.profile.hasAlgo then some s.frm.alg else none
  length := s.frm.len
  payload := firstBytes s.frm.pay s.frm.len.toNat
  checksumReceived := s.frm.ckrx
  checksumOk := s.frm.ckok

/-- `RES` at `F_DONE`: the abort's, if the decode came here from an abort, else the frame (R162). -/
def resultOf (s : State) : FrameResult :=
  match s.frm.res with
  | some (.syncError code) => .syncError code
  | _ => .ok (frameOf s)

/-- `RESULT`, R162: `RES` is set and `FRM_PH` returns to `F_IDLE`. -/
def result (s : State) : State := s.setFrm { s.frm with res := some (resultOf s), ph := .idle }

/-- `RESULT` as an operation that returns `RES`. -/
def returnResult (s : State) : Eff FrameResult := .ok (resultOf s) (result s)

/-! ## The whole operation (R164) -/

/-- The phases after the two headers. -/
def readFrame (s : State) : Eff FrameResult :=
  (readCmd s).andThen fun _ s =>
    (if s.profile.hasAlgo then readAlgo s else .ok () s).andThen fun _ s =>
      (readLen s).andThen fun _ s =>
        (readPayload s).andThen fun _ s =>
          (readCk s).andThen fun _ s => returnResult (tagDegraded s)

/-- `FRAME_DECODE`, R164. -/
def frameDecode (s : State) : Eff FrameResult :=
  (searchH1 s).andThen fun _ s =>
    if s.frm.ph = .done then returnResult s
    else
      (searchH2 s).andThen fun _ s =>
        if s.frm.ph = .done then returnResult s else readFrame s

/-! ## Meanings -/

/-- `FRAME_DECODE`, R150, R164. -/
def execFrameDecode (s : State) : Host.Outcome State Fault Refusal := (frameDecode s).answer .frame

/-- `SEARCH_H1`, R152. -/
def execSearchH1 (s : State) : Host.Outcome State Fault Refusal := (searchH1 s).close

/-- `SEARCH_H2`, R154. -/
def execSearchH2 (s : State) : Host.Outcome State Fault Refusal := (searchH2 s).close

/-- `READ_CMD`, R157. -/
def execReadCmd (s : State) : Host.Outcome State Fault Refusal := (readCmd s).close

/-- `READ_ALGO`, R158. -/
def execReadAlgo (s : State) : Host.Outcome State Fault Refusal := (readAlgo s).close

/-- `READ_LEN`, R159. -/
def execReadLen (s : State) : Host.Outcome State Fault Refusal := (readLen s).close

/-- `READ_PAYLOAD`, R160. -/
def execReadPayload (s : State) : Host.Outcome State Fault Refusal := (readPayload s).close

/-- `READ_CK`, R161. -/
def execReadCk (s : State) : Host.Outcome State Fault Refusal := (readCk s).close

/-- `TAG_DEGRADED`, R161. -/
def execTagDegraded (s : State) : Host.Outcome State Fault Refusal := .next (tagDegraded s)

/-- `RESULT`, R162. -/
def execResult (s : State) : Host.Outcome State Fault Refusal := (returnResult s).answer .frame

/-- `SENTINEL_BYTES(code)`, R163. -/
def execSentinelBytes (code : SyncCode) (s : State) : Host.Outcome State Fault Refusal :=
  .next (s.setRet (.bytes (sentinelBytesOf code)))

end Sys2Proof.Machine
end

