-- ==== Sys2Proof/Machine/Camera.lean ====
section
/-! DEFINITION. CameraCommandProtocol (45_camera_protocol.md). -/

namespace Sys2Proof.Machine

def setCcpPh (ph : CcpPh) (s : State) : State := s.setCcp { s.ccp with ph := ph }

/-! ## Handshake (R192 to R195) -/

/-- `KNOCK`, R192. -/
def knock (s : State) : Eff Bool :=
  (camWrite s.profile.txKnock (setCcpPh .knockTx s)).andThen fun _ s =>
    (frameDecode (setCcpPh .knockRx s)).andThen fun r s => .ok (matchesCode r s.profile.cmdOk) s

/-- `ALGSEL`, R194: performed only when `HAS_ALGSEL`; a profile without the exchange has nothing to fail (log 19). -/
def algsel (s : State) : Eff Bool :=
  if s.profile.hasAlgsel then
    (camWrite s.profile.txAlgsel (setCcpPh .algTx s)).andThen fun _ s =>
      (frameDecode (setCcpPh .algRx s)).andThen fun r s => .ok (matchesCode r s.profile.cmdOk) s
  else .ok true s

/-- `HANDSHAKE`, R195: knock first, select second. -/
def handshake (s : State) : Eff Unit :=
  (knock s).andThen fun known s =>
    if known then (algsel s).andThen fun selected s => .ok () (s.setConnected selected)
    else .ok () (s.setConnected false)

/-! ## Block request (R197 to R202) -/

/-- `EXTRACT(f, off)`, R201. DESIGN CHOICE (log 42): the bytes are the payload's, also where `f.length` is not its length. -/
def extract (f : Frame) (off : Offsets) (s : State) : Eff Block :=
  match blockAt f.payload off with
  | some b => .ok b (s.setCcp { s.ccp with blk := b, blkValid := true })
  | none => .stop .unwrittenRead

/-- The unrecognized branch, R200: flush at once, whatever it ends in; no block; `CONNECTED` is not changed. -/
def flushNoBlock (s : State) : Eff (Option Block) :=
  (flush (setCcpPh .flush s)).andThen fun _ s => .ok none s

/-- The block of a frame, if the payload covers the offsets; else the frame is unrecognized (R197, R202). -/
def blockOrFlush (f : Frame) (off : Offsets) (s : State) : Eff (Option Block) :=
  if covers f off then (extract f off s).andThen fun b s => .ok (some b) s else flushNoBlock s

/-- The wrapped shape: a second, nested frame; its command is not checked (R198, R199). -/
def wrappedBranch (s : State) : Eff (Option Block) :=
  (frameDecode (setCcpPh .nestRx s)).andThen fun r s =>
    match r with
    | .ok g => blockOrFlush g s.profile.offWrapped s
    | .syncError _ => flushNoBlock s

/-- The branch on the response (R197). -/
def responseBranch (r : FrameResult) (s : State) : Eff (Option Block) :=
  match r with
  | .syncError _ => flushNoBlock s
  | .ok f =>
    match responseClass s.profile f.command with
    | .wrapped => wrappedBranch s
    | .direct => blockOrFlush f s.profile.offDirect s
    | .unknown => flushNoBlock s

/-- `REQUEST_BLOCKS`, R197. -/
def requestBlocks (s : State) : Eff (Option Block) :=
  (camWrite s.profile.txReqblk (setCcpPh .reqTx s)).andThen fun _ s =>
    (frameDecode (setCcpPh .reqRx s)).andThen fun r s => responseBranch r s

/-! ## The 'c' handler (R203 to R205) -/

/-- The body of the `try` of R204. -/
def cameraTry (s : State) : Eff (Option Block) :=
  (if s.connected then .ok () s else handshake s).andThen fun _ s =>
    if s.connected then requestBlocks s else .ok none s

/-- The `catch CamFault` of R204: the fault is taken by DeviceAbsent; every other ending passes through. -/
def catchCamFault (m : Eff (List Byte)) : Eff (List Byte) :=
  match m with
  | .ok a s => .ok a s
  | .camFault _ s => .ok (absentReport s) (takeAbsent s)
  | .fatal c s => .fatal c s
  | .blocked s => .blocked s
  | .stop f => .stop f

/-- `CAMERA_DATA`, R204. -/
def cameraData (s : State) : Eff (List Byte) :=
  catchCamFault ((cameraTry (s.setCcp { s.ccp with blkValid := false })).andThen fun blk s =>
    .ok (blockReportBytes s.profile blk) (setCcpPh .done s))

/-! ## Meanings -/

/-- `KNOCK`, R192. -/
def execKnock (s : State) : Host.Outcome State Fault Refusal := (knock s).answer .bool

/-- `ALGSEL`, R194. -/
def execAlgsel (s : State) : Host.Outcome State Fault Refusal := (algsel s).answer .bool

/-- `HANDSHAKE`, R195. -/
def execHandshake (s : State) : Host.Outcome State Fault Refusal := (handshake s).close

/-- `REQUEST_BLOCKS`, R197. -/
def execRequestBlocks (s : State) : Host.Outcome State Fault Refusal := (requestBlocks s).answer .block

/-- `EXTRACT(f, off)`, R201. -/
def execExtract (f : Frame) (off : Offsets) (s : State) : Host.Outcome State Fault Refusal :=
  (extract f off s).answer fun b => .block (some b)

/-- `BLOCK_REPORT(b)`, R203, the table's row BLOCK_REPORT_BUILD. -/
def execBlockReportBuild (b : Option Block) (s : State) : Host.Outcome State Fault Refusal :=
  .next (s.setRet (.bytes (blockReportBytes s.profile b)))

/-- `CAMERA_DATA`, R204. -/
def execCameraData (s : State) : Host.Outcome State Fault Refusal := (cameraData s).answer .bytes

end Sys2Proof.Machine
end

