-- ==== Sys2Proof/Machine/Scanner.lean ====
section
/-! DEFINITION. PhotodiodeScanner (41_scanner.md). -/

namespace Sys2Proof.Machine

def setScnPh (ph : ScnPh) (s : State) : State := s.setScn { s.scn with ph := ph }

def setK (k : Fin 8) (s : State) : State := s.setScn { s.scn with k := k }

def setHalf (b : Bool) (s : State) : State := s.setScn { s.scn with half := b }

def setMuxPulses (n : Nat) (s : State) : State := s.setEnv { s.env with muxPulses := n }

/-- The first half of the reset pulse (R132). -/
def muxResetAssert (s : State) : Eff Unit :=
  (pinSet .muxReset s.profile.muxResetActive s).andThen fun _ s => .ok () (setHalf true s)

/-- The second half: the line is released at once; the multiplexer has no pulse since its reset. -/
def muxResetRelease (s : State) : Eff Unit :=
  (pinSet .muxReset (!s.profile.muxResetActive) s).andThen fun _ s => .ok () (setMuxPulses 0 (setHalf false s))

/-- `MUX_RESET_PULSE`, R132. -/
def muxResetPulse (s : State) : Eff Unit := (muxResetAssert s).andThen fun _ s => muxResetRelease s

/-- The first half of the advance pulse (R133). -/
def muxAdvanceAssert (s : State) : Eff Unit :=
  (pinSet .muxAdv s.profile.muxAdvActive s).andThen fun _ s => .ok () (setHalf true s)

/-- The second half; each pulse moves the multiplexer one position on (R133; log 23). -/
def muxAdvanceRelease (s : State) : Eff Unit :=
  (pinSet .muxAdv (!s.profile.muxAdvActive) s).andThen fun _ s =>
    .ok () (setMuxPulses (s.env.muxPulses + 1) (setHalf false s))

/-- `MUX_ADVANCE_PULSE`, R133. -/
def muxAdvancePulse (s : State) : Eff Unit := (muxAdvanceAssert s).andThen fun _ s => muxAdvanceRelease s

/-- `SETTLE`, R134: clock settle, then ADC settle, two sleeps; the phase names the one in progress (R131). DESIGN CHOICE
(log 39): it writes the phase when it is called by itself too, where R134 names the sleeps alone; the pulses and `SAMPLE`,
which are one phase each, leave writing it to `SCAN`. -/
def settle (s : State) : Eff Unit :=
  (sleep s.profile.tClkSettle (setScnPh .settleClk s)).andThen fun _ s =>
    sleep s.profile.tAdcSettle (setScnPh .settleAdc s)

/-- `SAMPLE`, R135: `S[K] <- AnalogRead()`. -/
def sample (s : State) : Eff Unit :=
  (analogRead s).andThen fun v s => .ok () (s.setScn { s.scn with s := s.scn.s.set s.scn.k v })

/-- One position: advance, settle, sample (R131). -/
def visitChannel (s : State) : Eff Unit :=
  (muxAdvancePulse (setScnPh .adv s)).andThen fun _ s =>
    (settle s).andThen fun _ s => sample (setScnPh .sample s)

/-- The remaining channels: the inter-channel delay comes before each advance (R131, R136). -/
def scanLater : List (Fin 8) → State → Eff Unit
  | [], s => .ok () s
  | k :: ks, s =>
    (sleep s.profile.tInterch (setScnPh .interch (setK k s))).andThen fun _ s =>
      (visitChannel s).andThen fun _ s => scanLater ks s

/-- The start of a scan: phase `S_RESET`, no half pulse made (log 15). -/
def scanStart (s : State) : State := setHalf false (setScnPh .reset s)

/-- `SCAN`, R131. -/
def scan (s : State) : Eff Unit :=
  (muxResetPulse (scanStart s)).andThen fun _ s =>
    (visitChannel (setK 0 s)).andThen fun _ s =>
      (scanLater laterChannels s).andThen fun _ s => .ok () (setScnPh .done s)

/-- `SCAN`, R130. DESIGN CHOICE (log 3): the sequence that R131 returns stands in `S` alone; the model's own `ret` is left. -/
def execScan (s : State) : Host.Outcome State Fault Refusal := (scan s).close

/-- `MUX_RESET_PULSE`, R132. -/
def execMuxResetPulse (s : State) : Host.Outcome State Fault Refusal := (muxResetPulse s).close

/-- `MUX_ADVANCE_PULSE`, R133. -/
def execMuxAdvancePulse (s : State) : Host.Outcome State Fault Refusal := (muxAdvancePulse s).close

/-- `SETTLE`, R134. -/
def execSettle (s : State) : Host.Outcome State Fault Refusal := (settle s).close

/-- `SAMPLE`, R135. -/
def execSample (s : State) : Host.Outcome State Fault Refusal := (sample s).close

end Sys2Proof.Machine
end

