-- ==== Sys2Proof/Machine/Selector.lean ====
section
/-! DEFINITION. SignalSelector (42_selector.md). -/

namespace Sys2Proof.Machine

/-- `ARGMAX(S)` into `IDXMAX`, R141. -/
def argmax (s : State) : State := s.setScn { s.scn with idxmax := argmaxOf s.scn.s }

/-- `RESCALE(v)` into `MAG`, R142. -/
def rescale (v : Sample) (s : State) : State := s.setScn { s.scn with mag := rescaleOf s.profile.signalScale v }

def setFreq (b : Bool) (s : State) : State := s.setScn { s.scn with freq := b }

/-- The register updates of `SELECT`: index, then magnitude of the sample at that index (R140). -/
def selectRegs (s : State) : State := rescale (argmax s).scn.s[(argmax s).scn.idxmax] (argmax s)

/-- `SELECT(S, freq)`, R140: the report is returned. -/
def select (freq : Bool) (s : State) : Eff (List Byte) :=
  .ok (signalReportBytes s.profile (selectRegs s).scn.idxmax (selectRegs s).scn.mag freq) (selectRegs s)

/-- `SIGNAL(freq)`, R146. -/
def signal (freq : Bool) (s : State) : Eff (List Byte) :=
  (scan (setFreq freq s)).andThen fun _ s => select s.scn.freq s

/-- `SELECT(S, freq)`, R140. -/
def execSelect (freq : Bool) (s : State) : Host.Outcome State Fault Refusal := (select freq s).answer .bytes

/-- `ARGMAX(S)`, R141. -/
def execArgmax (s : State) : Host.Outcome State Fault Refusal := .next ((argmax s).setRet (.index (argmax s).scn.idxmax))

/-- `RESCALE(v)`, R142. -/
def execRescale (v : Sample) (s : State) : Host.Outcome State Fault Refusal :=
  .next ((rescale v s).setRet (.mag (rescale v s).scn.mag))

/-- `PACK`, R145: bytes 0 and 1 from `IDXMAX`, `MAG` and the flag. -/
def execPack (freq : Bool) (s : State) : Host.Outcome State Fault Refusal :=
  .next (s.setRet (.bytes (packReport s.scn.idxmax s.scn.mag freq)))

/-- `SIGNAL(freq)`, R146. -/
def execSignal (freq : Bool) (s : State) : Host.Outcome State Fault Refusal := (signal freq s).answer .bytes

end Sys2Proof.Machine
end

