-- ==== Sys2Proof/Machine/Formats.lean ====
section
/-! DEFINITION. The meanings of the rows that are byte patterns: what the engine does when it has met the pattern, or
what it emits (30_encoding.md R92 to R102; log 17). -/

namespace Sys2Proof.Machine

/-! ## Response classes -/

/-- A handshake step has succeeded (45_camera_protocol.md R192, R194, R195): after the knock the select follows when
the profile has one; otherwise the handshake is complete, `CONNECTED` is set, and the block request follows in the same
cycle (R204). -/
def handshakeStepOk (s : State) : State :=
  if s.ccp.ph = .knockRx ∧ s.profile.hasAlgsel then setCcpPh .algTx s
  else (setCcpPh .reqTx s).setConnected true

/-- RESP_OK, R191, R192, R194: the step returns true. -/
def execRespOk (s : State) : Host.Outcome State Fault Refusal := .next ((handshakeStepOk s).setRet (.bool true))

/-- RESP_NOT_OK, R193, R194: the camera is declared absent and nothing more is done in this cycle; the command that came
is not kept. DESIGN CHOICE (log 42): so too when the row is called by its name with the ok code, which its row excludes. -/
def execRespNotOk (_cmd : Byte) (s : State) : Host.Outcome State Fault Refusal :=
  .next ((takeAbsent s).setRet (.bytes (absentReport s)))

/-- RESP_WRAPPED, R198, R199. -/
def execRespWrapped (s : State) : Host.Outcome State Fault Refusal := (wrappedBranch s).answer .block

/-- The direct shape (R198): the block is in the frame that `RES` holds, or, while `RES` holds no result, in the frame the
framer's registers hold (10_state.md R32). A sync error is no frame: it takes the unrecognized branch (R200). -/
def directBranch (s : State) : Eff (Option Block) :=
  match s.frm.res with
  | some (.ok f) => blockOrFlush f s.profile.offDirect s
  | some (.syncError _) => flushNoBlock s
  | none => blockOrFlush (frameOf s) s.profile.offDirect s

/-- RESP_DIRECT, R198, R202. -/
def execRespDirect (s : State) : Host.Outcome State Fault Refusal := (directBranch s).answer .block

/-- RESP_UNKNOWN, R200: the command that came is not kept. DESIGN CHOICE (log 42): so too when the row is called by its name
with one of the two codes that its row excludes. -/
def execRespUnknown (_cmd : Byte) (s : State) : Host.Outcome State Fault Refusal := (flushNoBlock s).answer .block

/-! ## The camera frame -/

/-- CAMERA_FRAME, 30_encoding.md R94: the camera delivers the frame, as the next bytes of its buffer, and the framer
decodes it (43_framer.md R164). DESIGN CHOICE (log 42): a call by its name whose algorithm byte does not match `HAS_ALGO` is run
too, its bytes placed as given and decoded in the profile's layout; the length byte of a payload over 255 bytes is log 40's. -/
def execCameraFrame (command : Byte) (algorithm : Option Byte) (payload : List Byte) (ck : Byte) (s : State) :
    Host.Outcome State Fault Refusal :=
  let bytes := [s.profile.hdr1, s.profile.hdr2, command] ++ algorithm.toList ++ [BitVec.ofNat 8 payload.length]
    ++ payload ++ [ck]
  (frameDecode (s.setEnv { s.env with camBuf := bytes ++ s.env.camBuf })).answer .frame

/-! ## Sentinels and chunks -/

/-- The abort of a header search and its rendering (43_framer.md R152, R154, R163). -/
def abortWithSentinel (code : SyncCode) (s : State) : State :=
  (syncAbort code s).setRet (.bytes (sentinelBytesOf code))

/-- SENTINEL_H1, R163. -/
def execSentinelH1 (s : State) : Host.Outcome State Fault Refusal := .next (abortWithSentinel .h1 s)

/-- SENTINEL_H2, R163. -/
def execSentinelH2 (s : State) : Host.Outcome State Fault Refusal := .next (abortWithSentinel .h2 s)

/-- A chunk has come in the loop of 44_flusher.md R181: below the bound it is stored and counted, and ends the flush or not; at
the bound the loop takes no chunk and the flush is `Exhausted`, `FL` and `FL_N` being left (log 37). DESIGN CHOICE (log 3): a chunk
after which the flush reads on has no result, and `ret` is set to `unit` to say so. -/
def chunkCame (c : List Byte) (s : State) : State :=
  if flushReadsOn s then
    (storeChunk c s).setRet
      (match chunkVerdict c (storeChunk c s) with
      | some r => .flush r
      | none => .unit)
  else s.setRet (.flush .exhausted)

/-- CHUNK_EMPTY, R181: ends the flush, `Drained`. -/
def execChunkEmpty (s : State) : Host.Outcome State Fault Refusal :=
  .next (chunkCame [Config.flushEmpty, Config.flushEmpty, Config.flushEmpty, Config.flushEmpty] s)

/-- CHUNK_DATA, R182: the flush reads on (`ret` is then `unit`: log 3), or ends `Exhausted` at its bound. DESIGN CHOICE (log 42): called by its name with four
0xFF bytes, which is no word of this row, it is the empty chunk. -/
def execChunkData (b0 b1 b2 b3 : Byte) (s : State) : Host.Outcome State Fault Refusal :=
  .next (chunkCame [b0, b1, b2, b3] s)

/-! ## Request frames -/

/-- TX_KNOCK, 30_encoding.md R101: written as stored. -/
def execTxKnock (s : State) : Host.Outcome State Fault Refusal := (camWrite s.profile.txKnock s).close

/-- TX_ALGSEL, R101: used only if `HAS_ALGSEL` (log 19). -/
def execTxAlgsel (s : State) : Host.Outcome State Fault Refusal :=
  if s.profile.hasAlgsel then (camWrite s.profile.txAlgsel s).close else .next s

/-- TX_REQBLK, R101. -/
def execTxReqblk (s : State) : Host.Outcome State Fault Refusal := (camWrite s.profile.txReqblk s).close

/-! ## Reports -/

/-- SIGNAL_REPORT, R92: the report with these fields is the response. Its checksum byte is computed over the bytes as
sent (42_selector.md R144), which is the word's own byte in a well-formed word. DESIGN CHOICE (log 38): a word of the other
length is taken too, and the response has the profile's length. -/
def execSignalReport (index : BitVec 3) (freq : Bool) (mag : BitVec 7) (_ck : Option Byte) (s : State) :
    Host.Outcome State Fault Refusal :=
  .next (loadResp (signalReportBytes s.profile (Fin.ofNat 8 index.toNat) mag freq) s)

/-- BLOCK_REPORT, R93: the report with this block is the response; its checksum byte is recomputed locally
(45_camera_protocol.md R203). DESIGN CHOICE (log 38): as for SIGNAL_REPORT. -/
def execBlockReport (b : Block) (_ck : Option Byte) (s : State) : Host.Outcome State Fault Refusal :=
  .next (loadResp (blockReportBytes s.profile (some b)) s)

end Sys2Proof.Machine
end

