-- ==== Sys2Proof/Machine/Arbiter.lean ====
section
/-! DEFINITION. RS485Dispatcher, the half-duplex arbiter (46_arbiter.md). -/

namespace Sys2Proof.Machine

def setArbPh (ph : ArbPh) (s : State) : State := s.setArb { s.arb with ph := ph }

def setMode (m : Mode) (s : State) : State := s.setArb { s.arb with mode := m }

/-! ## The steps of the loop -/

/-- `SET_RX`, R222: the mode is written after the pin. -/
def setRx (s : State) : Eff Unit :=
  (pinSet .dir (!s.profile.dirTxLevel) s).andThen fun _ s => .ok () (setMode .receive s)

/-- `WAIT_CMD`, R223. -/
def waitCmd (s : State) : Eff Unit :=
  (upRead s).andThen fun b s => .ok () (s.setArb { s.arb with cmd := b })

/-- `SET_TX`, R224. -/
def setTx (s : State) : Eff Unit :=
  (pinSet .dir s.profile.dirTxLevel s).andThen fun _ s => .ok () (setMode .transmit s)

/-- `SIG_LO`, R226. Called by itself it writes `RESP_LEN` with `RESP` (log 43), as do the two below and `UNRECOGNIZED`. -/
def sigLo (s : State) : Eff Unit := (signal false s).andThen fun bs s => .ok () (loadResp bs s)

/-- `SIG_HI`, R227. -/
def sigHi (s : State) : Eff Unit := (signal true s).andThen fun bs s => .ok () (loadResp bs s)

/-- `CAM_DATA`, R228. -/
def camData (s : State) : Eff Unit := (cameraData s).andThen fun bs s => .ok () (loadResp bs s)

/-- `UNRECOGNIZED`, R229: no data response, one `Diag`, whose tag `DISPATCH` takes from `CMD` (R225). -/
def unrecognized (cmd : Byte) (s : State) : Eff Unit := diag (.unrecognized cmd) (loadResp [] s)

/-- `DISPATCH`, R225: on the whole command byte. -/
def dispatch (s : State) : Eff Unit :=
  match uplinkCmd s.arb.cmd with
  | .sigLo => sigLo s
  | .sigHi => sigHi s
  | .camData => camData s
  | .unrecognized => unrecognized s.arb.cmd s

/-- `WRITE_RESP`, R230: one call with the whole response; no call and no event when it is empty.
DESIGN CHOICE (log 41): it does not check `RESP_LEN` against the lengths of 20_memory.md R63; called by itself while `RESP_LEN`
holds a value that no dispatch writes (1, or 4 to 7), it writes that many bytes. -/
def writeResp (s : State) : Eff Unit := if 0 < s.arb.respLen then upWrite (respBytes s) s else .ok () s

/-- `TX_SETTLE`, R231. -/
def txSettle (s : State) : Eff Unit := sleep s.profile.tTxSettle s

/-- One pass of `ARB_LOOP`, a cycle (R221; log 13). -/
def arbCycle (s : State) : Eff Unit :=
  (setRx (setArbPh .setRx s)).andThen fun _ s =>
    (waitCmd (setArbPh .waitCmd s)).andThen fun _ s =>
      (setTx (setArbPh .setTx s)).andThen fun _ s =>
        (dispatch (setArbPh .dispatch s)).andThen fun _ s =>
          (writeResp (setArbPh .write s)).andThen fun _ s =>
            (txSettle (setArbPh .settle s)).andThen fun _ s => .ok () (setArbPh .setRx s)

/-! ## Meanings -/

/-- `SIG_LO`, R226. -/
def execSigLo (s : State) : Host.Outcome State Fault Refusal := (sigLo s).close

/-- `SIG_HI`, R227. -/
def execSigHi (s : State) : Host.Outcome State Fault Refusal := (sigHi s).close

/-- `CAM_DATA`, R228. -/
def execCamData (s : State) : Host.Outcome State Fault Refusal := (camData s).close

/-- `UNRECOGNIZED`, R229. DESIGN CHOICE (log 42): called by itself it takes the tag from its operand, whatever `CMD` holds, and an
operand that its row excludes ('l', 'h', 'c') is not refused. -/
def execUnrecognized (cmd : Byte) (s : State) : Host.Outcome State Fault Refusal := (unrecognized cmd s).close

/-- `ARB_LOOP`, R221. -/
def execArbLoop (s : State) : Host.Outcome State Fault Refusal := (arbCycle s).close

/-- `SET_RX`, R222. -/
def execSetRx (s : State) : Host.Outcome State Fault Refusal := (setRx s).close

/-- `WAIT_CMD`, R223. -/
def execWaitCmd (s : State) : Host.Outcome State Fault Refusal := (waitCmd s).close

/-- `SET_TX`, R224. -/
def execSetTx (s : State) : Host.Outcome State Fault Refusal := (setTx s).close

/-- `DISPATCH`, R225. -/
def execDispatch (s : State) : Host.Outcome State Fault Refusal := (dispatch s).close

/-- `WRITE_RESP`, R230. -/
def execWriteResp (s : State) : Host.Outcome State Fault Refusal := (writeResp s).close

/-- `TX_SETTLE`, R231. -/
def execTxSettle (s : State) : Host.Outcome State Fault Refusal := (txSettle s).close

/-- `FATAL_STOP(c)`, R232. -/
def execFatalStop (c : FatalCause) (s : State) : Host.Outcome State Fault Refusal := .next (takeFatal c s)

end Sys2Proof.Machine
end

