-- ==== Sys2Proof/Machine/Primitives.lean ====
section
/-! DEFINITION. The meanings of the primitives (20_memory.md R62 to R69) called as operations. -/

namespace Sys2Proof.Machine

/-- `UpRead`, R62. -/
def execUpRead (s : State) : Host.Outcome State Fault Refusal := (upRead s).answer .byte

/-- `UpWrite(bs)`, R63: `len(bs)` in {2, 3, 8, 9}. -/
def execUpWrite (bs : List Byte) (s : State) : Host.Outcome State Fault Refusal :=
  if upWriteLength bs.length then (upWrite bs s).close else .refused .operandOutOfDomain

/-- `CamRead(n)`, R64: `n = 1` or `n = 4`. -/
def execCamRead (n : Nat) (s : State) : Host.Outcome State Fault Refusal :=
  if camReadWidth n then (camRead n s).answer .bytes else .refused .operandOutOfDomain

/-- `CamWrite(bs)`, R65: `len(bs) >= 1`. -/
def execCamWrite (bs : List Byte) (s : State) : Host.Outcome State Fault Refusal :=
  if bs ≠ [] then (camWrite bs s).close else .refused .operandOutOfDomain

/-- `PinSet(pin, level)`, R66. -/
def execPinSet (pin : Pin) (level : Bool) (s : State) : Host.Outcome State Fault Refusal := (pinSet pin level s).close

/-- `AnalogRead()`, R67. -/
def execAnalogRead (s : State) : Host.Outcome State Fault Refusal := (analogRead s).answer .sample

/-- `Sleep(d)`, R68. -/
def execSleep (d : Nat) (s : State) : Host.Outcome State Fault Refusal := (sleep d s).close

/-- `Diag(e)`, R69. -/
def execDiag (e : DiagTag) (s : State) : Host.Outcome State Fault Refusal := (diag e s).close

end Sys2Proof.Machine
end

