-- ==== Sys2Proof/Machine/Dispatch.lean ====
section
/-! DEFINITION. One arm per operation, in the order of spec/opcode_table.json. -/

namespace Sys2Proof.Machine

def exec (i : Instr) (s : State) : Host.Outcome State Fault Refusal :=
  match i with
  | .sigLo => Sys2Proof.Machine.execSigLo s
  | .sigHi => Sys2Proof.Machine.execSigHi s
  | .camData => Sys2Proof.Machine.execCamData s
  | .unrecognized cmd => Sys2Proof.Machine.execUnrecognized cmd s
  | .respOk => Sys2Proof.Machine.execRespOk s
  | .respNotOk cmd => Sys2Proof.Machine.execRespNotOk cmd s
  | .respWrapped => Sys2Proof.Machine.execRespWrapped s
  | .respDirect => Sys2Proof.Machine.execRespDirect s
  | .respUnknown cmd => Sys2Proof.Machine.execRespUnknown cmd s
  | .cameraFrame command algorithm payload ck => Sys2Proof.Machine.execCameraFrame command algorithm payload ck s
  | .sentinelH1 => Sys2Proof.Machine.execSentinelH1 s
  | .sentinelH2 => Sys2Proof.Machine.execSentinelH2 s
  | .chunkEmpty => Sys2Proof.Machine.execChunkEmpty s
  | .chunkData b0 b1 b2 b3 => Sys2Proof.Machine.execChunkData b0 b1 b2 b3 s
  | .txKnock => Sys2Proof.Machine.execTxKnock s
  | .txAlgsel => Sys2Proof.Machine.execTxAlgsel s
  | .txReqblk => Sys2Proof.Machine.execTxReqblk s
  | .signalReport index freq mag ck => Sys2Proof.Machine.execSignalReport index freq mag ck s
  | .blockReport b ck => Sys2Proof.Machine.execBlockReport b ck s
  | .checksum bs => Sys2Proof.Machine.execChecksum bs s
  | .accStep b => Sys2Proof.Machine.execAccStep b s
  | .ckValidate => Sys2Proof.Machine.execCkValidate s
  | .scan => Sys2Proof.Machine.execScan s
  | .muxResetPulse => Sys2Proof.Machine.execMuxResetPulse s
  | .muxAdvancePulse => Sys2Proof.Machine.execMuxAdvancePulse s
  | .settle => Sys2Proof.Machine.execSettle s
  | .sample => Sys2Proof.Machine.execSample s
  | .select freq => Sys2Proof.Machine.execSelect freq s
  | .argmax => Sys2Proof.Machine.execArgmax s
  | .rescale v => Sys2Proof.Machine.execRescale v s
  | .pack freq => Sys2Proof.Machine.execPack freq s
  | .signal freq => Sys2Proof.Machine.execSignal freq s
  | .frameDecode => Sys2Proof.Machine.execFrameDecode s
  | .searchH1 => Sys2Proof.Machine.execSearchH1 s
  | .searchH2 => Sys2Proof.Machine.execSearchH2 s
  | .readCmd => Sys2Proof.Machine.execReadCmd s
  | .readAlgo => Sys2Proof.Machine.execReadAlgo s
  | .readLen => Sys2Proof.Machine.execReadLen s
  | .readPayload => Sys2Proof.Machine.execReadPayload s
  | .readCk => Sys2Proof.Machine.execReadCk s
  | .tagDegraded => Sys2Proof.Machine.execTagDegraded s
  | .result => Sys2Proof.Machine.execResult s
  | .sentinelBytes code => Sys2Proof.Machine.execSentinelBytes code s
  | .flush => Sys2Proof.Machine.execFlush s
  | .knock => Sys2Proof.Machine.execKnock s
  | .algsel => Sys2Proof.Machine.execAlgsel s
  | .handshake => Sys2Proof.Machine.execHandshake s
  | .requestBlocks => Sys2Proof.Machine.execRequestBlocks s
  | .extract f off => Sys2Proof.Machine.execExtract f off s
  | .blockReportBuild b => Sys2Proof.Machine.execBlockReportBuild b s
  | .cameraData => Sys2Proof.Machine.execCameraData s
  | .arbLoop => Sys2Proof.Machine.execArbLoop s
  | .setRx => Sys2Proof.Machine.execSetRx s
  | .waitCmd => Sys2Proof.Machine.execWaitCmd s
  | .setTx => Sys2Proof.Machine.execSetTx s
  | .dispatch => Sys2Proof.Machine.execDispatch s
  | .writeResp => Sys2Proof.Machine.execWriteResp s
  | .txSettle => Sys2Proof.Machine.execTxSettle s
  | .fatalStop c => Sys2Proof.Machine.execFatalStop c s
  | .upRead => Sys2Proof.Machine.execUpRead s
  | .upWrite bs => Sys2Proof.Machine.execUpWrite bs s
  | .camRead n => Sys2Proof.Machine.execCamRead n s
  | .camWrite bs => Sys2Proof.Machine.execCamWrite bs s
  | .pinSet pin level => Sys2Proof.Machine.execPinSet pin level s
  | .analogRead => Sys2Proof.Machine.execAnalogRead s
  | .sleep d => Sys2Proof.Machine.execSleep d s
  | .diag e => Sys2Proof.Machine.execDiag e s

end Sys2Proof.Machine
end

