-- ==== Sys2Proof/Machine/Sequencer.lean ====
section
/-! DEFINITION. The engine's sequencer: from the phase registers, the one primitive call that is due, and the register
updates the pseudocode performs up to the next one (00_scope.md R16, 10_state.md R23, R24). Each piece is the piece the
operation of that phase is made of, so the sequencer and the whole operations say the same thing twice: step by step
here, in one piece in the family files. -/

namespace Sys2Proof.Machine

/-! ## Control returning to a caller, with no primitive call -/

/-- A handler has returned its response to `DISPATCH` (R225). An empty response makes no call in `A_WRITE` (R230). -/
def handlerReturn (bs : List Byte) (s : State) : State :=
  setArbPh (if bs = [] then .settle else .write) (loadResp bs s)

/-- `CAMERA_DATA` returns its report (R204). -/
def cameraReturn (blk : Option Block) (s : State) : State :=
  handlerReturn (blockReportBytes s.profile blk) (setCcpPh .done s)

/-- DeviceAbsent is taken and its zero report returned (R193, R204). -/
def absentReturn (s : State) : State := handlerReturn (absentReport s) (takeAbsent s)

/-- The flush begins (R200). -/
def enterFlush (s : State) : State := flushStart (setCcpPh .flush s)

/-- A frame whose payload should hold the block (R197, R202). -/
def blockReturn (f : Frame) (off : Offsets) (s : State) : Eff Unit :=
  if covers f off then (extract f off s).andThen fun b s => .ok () (cameraReturn (some b) s)
  else .ok () (enterFlush s)

/-- A decode has returned `r` to the protocol (R192, R194, R195, R197). -/
def protocolReturn (r : FrameResult) (s : State) : Eff Unit :=
  match s.ccp.ph with
  | .knockRx | .algRx =>
    if matchesCode r s.profile.cmdOk then .ok () (handshakeStepOk s) else .ok () (absentReturn s)
  | .reqRx =>
    match r with
    | .syncError _ => .ok () (enterFlush s)
    | .ok f =>
      match responseClass s.profile f.command with
      | .wrapped => .ok () (frameStart (setCcpPh .nestRx s))
      | .direct => blockReturn f s.profile.offDirect s
      | .unknown => .ok () (enterFlush s)
  | .nestRx =>
    match r with
    | .syncError _ => .ok () (enterFlush s)
    | .ok g => blockReturn g s.profile.offWrapped s
  | .idle | .knockTx | .algTx | .reqTx | .flush | .done => .stop .noPosition

/-- `F_DONE`: the result is returned (R162); any other phase has a read due. -/
def decodeReturn (s : State) : Eff Unit :=
  if s.frm.ph = .done then (returnResult s).andThen protocolReturn else .ok () s

/-- `SCAN` has returned: `SELECT`, and the report to `DISPATCH` (R146). -/
def scanReturn (s : State) : Eff Unit :=
  (select s.scn.freq s).andThen fun bs s => .ok () (handlerReturn bs s)

/-- `DISPATCH` calls the handler the command byte selects, up to its first primitive call (R225). -/
def dispatchEnter (s : State) : State :=
  match uplinkCmd s.arb.cmd with
  | .sigLo => scanStart (setFreq false s)
  | .sigHi => scanStart (setFreq true s)
  | .camData => setCcpPh (if s.connected then .reqTx else .knockTx) (s.setCcp { s.ccp with blkValid := false })
  | .unrecognized => s

/-! ## The primitive call that is due -/

/-- A call of the scanner, by `SCN_PH` (R131). -/
def stepScan (s : State) : Eff Unit :=
  match s.scn.ph with
  | .reset =>
    if s.scn.half then (muxResetRelease s).andThen fun _ s => .ok () (setScnPh .adv (setK 0 s)) else muxResetAssert s
  | .adv =>
    if s.scn.half then (muxAdvanceRelease s).andThen fun _ s => .ok () (setScnPh .settleClk s) else muxAdvanceAssert s
  | .settleClk => (sleep s.profile.tClkSettle s).andThen fun _ s => .ok () (setScnPh .settleAdc s)
  | .settleAdc => (sleep s.profile.tAdcSettle s).andThen fun _ s => .ok () (setScnPh .sample s)
  | .sample =>
    (sample s).andThen fun _ s =>
      if s.scn.k = 7 then scanReturn (setScnPh .done s) else .ok () (setScnPh .interch (setK (s.scn.k + 1) s))
  | .interch => (sleep s.profile.tInterch s).andThen fun _ s => .ok () (setScnPh .adv s)
  | .idle | .done => .stop .noPosition

/-- The read of the framer, by `FRM_PH` (R152 to R161), and what follows a decode that ends with it. -/
def stepFrame (s : State) : Eff Unit :=
  match s.frm.ph with
  | .h1 => (stepH1 s).andThen fun _ s => decodeReturn s
  | .h2 => (stepH2 s).andThen fun _ s => decodeReturn s
  | .cmd => readCmd s
  | .algo => readAlgo s
  | .len => readLen s
  | .pay => stepPayload s
  | .ck => (readCk s).andThen fun _ s => decodeReturn (tagDegraded s)
  | .idle | .done => .stop .noPosition

/-- A call of the camera path, by `CCP_PH`. -/
def stepCamera (s : State) : Eff Unit :=
  match s.ccp.ph with
  | .knockTx => (camWrite s.profile.txKnock s).andThen fun _ s => .ok () (frameStart (setCcpPh .knockRx s))
  | .algTx => (camWrite s.profile.txAlgsel s).andThen fun _ s => .ok () (frameStart (setCcpPh .algRx s))
  | .reqTx => (camWrite s.profile.txReqblk s).andThen fun _ s => .ok () (frameStart (setCcpPh .reqRx s))
  | .knockRx | .algRx | .reqRx | .nestRx => stepFrame s
  | .flush =>
    (stepFlush s).andThen fun r s =>
      match r with
      | some _ => .ok () (cameraReturn none s)
      | none => .ok () s
  | .idle | .done => .stop .noPosition

/-- The catch of R204, around every call of the camera path. -/
def caughtCamera (m : Eff Unit) : Eff Unit :=
  match m with
  | .ok a s => .ok a s
  | .camFault _ s => .ok () (absentReturn s)
  | .fatal c s => .fatal c s
  | .blocked s => .blocked s
  | .stop f => .stop f

/-- The call due during dispatch, by the command byte (R225). -/
def stepHandler (s : State) : Eff Unit :=
  match uplinkCmd s.arb.cmd with
  | .sigLo | .sigHi => stepScan s
  | .camData => caughtCamera (stepCamera s)
  | .unrecognized => (unrecognized s.arb.cmd s).andThen fun _ s => .ok () (handlerReturn [] s)

/-- The call due in the loop, by `ARB_PH` (R221). -/
def loopCall (s : State) : Eff Unit :=
  match s.arb.ph with
  | .setRx => (setRx s).andThen fun _ s => .ok () (setArbPh .waitCmd s)
  | .waitCmd => (waitCmd s).andThen fun _ s => .ok () (setArbPh .setTx s)
  | .setTx => (setTx s).andThen fun _ s => .ok () (dispatchEnter (setArbPh .dispatch s))
  | .dispatch => stepHandler s
  | .write => (writeResp s).andThen fun _ s => .ok () (setArbPh .settle s)
  | .settle => (txSettle s).andThen fun _ s => .ok () (setArbPh .setRx s)
  | .halted => .stop .halted

/-- `FATAL_STOP(c)` up to its first primitive call (R232): in TRANSMIT the restoring `PinSet` is due, and is a step of its
own (00_scope.md R16; log 35); in RECEIVE there is none, and the halt is latched at once. -/
def enterFatal (c : FatalCause) (s : State) : State :=
  match s.arb.mode with
  | .transmit => s.setStopping (some c)
  | .receive => takeFatal c s

/-- The rest of `FATAL_STOP(c)`: the restoring `PinSet` and what follows it (R232). -/
def leaveFatal (c : FatalCause) (s : State) : State := takeFatal c (s.setStopping none)

/-- The call due: that of a `FATAL_STOP` under way, else that of the loop. -/
def callDue (s : State) : Eff Unit :=
  match s.stopping with
  | some c => .ok () (leaveFatal c s)
  | none => loopCall s

/-- The outcome of a call of the sequencer: as `Eff.close`, but that a `Fatal` is taken up to the next primitive call. -/
def Eff.closeStep (m : Eff Unit) : Host.Outcome State Fault Refusal :=
  match m with
  | .fatal c s => .next (enterFatal c s)
  | .ok a s => (Eff.ok a s).close
  | .camFault k s => (Eff.camFault (α := Unit) k s).close
  | .blocked s => (Eff.blocked (α := Unit) s).close
  | .stop f => (Eff.stop (α := Unit) f).close

/-- The word or operation called from outside, decoded (log 2). -/
def fetchCall (P : Profile) : Call → Decoded
  | .word fmt bytes => decode P fmt bytes
  | .op i => .ok i

end Sys2Proof.Machine
end

