-- ==== Sys2Proof/Machine/Step.lean ====
section
/-! DEFINITION. One step. A halted engine has none (10_state.md R27); a profile that fails its checks is refused
(00_scope.md R10); an operation called from outside is run in whole (log 2); otherwise the sequencer makes the one
primitive call that is due (00_scope.md R16). -/

namespace Sys2Proof.Machine

def step (s : State) : Host.Outcome State Fault Refusal :=
  if s.arb.halt then .fault .halted
  else if s.profile.wf then
    match s.call with
    | none => (callDue s).closeStep
    | some c =>
      match fetchCall s.profile c with
      | .ok i => exec i (s.setCall none)
      | .reject why => .refused (.undecodable why)
  else .refused .profileRejected

/-- `s` with a row's word called from outside, so that the very next step decodes it and runs it (log 2, 16). -/
def State.withFetchWord (s : State) (nbits w : Nat) : State :=
  s.setCall (some (.word (tableWord nbits w).1 (tableWord nbits w).2))

end Sys2Proof.Machine
end

