-- ==== Sys2Proof/Safety.lean ====
section
/-! DEFINITION. The terms the claims are stated in: an environment without faults to come, the points of the fixed call
tree, the invariant of the sequencer, and the invariants of the trace (20_memory.md R70). -/

namespace Sys2Proof.Machine

/-! ## What the environment has ready -/

def AdcAnswer.isSample : AdcAnswer → Bool
  | .sample _ => true
  | .fatal => false

/-- None of the first `n` entries of a list of answers raises. -/
def clear (n : Nat) (l : List Bool) : Prop := ∀ b ∈ l.take n, b = false

/-- The next `bs.length` reads of one byte answer `bs`, without a fault, filler included, and leave `rest` in the
camera's buffer (20_memory.md R64, R85). -/
def Env.delivers (e : Env) (bs rest : List Byte) : Prop :=
  takeFilled bs.length e.camBuf = bs ∧ e.camBuf.drop bs.length = rest ∧ ∀ f ∈ e.camRd.take bs.length, f = none

/-- The next `cs.length` reads of four bytes answer `cs`, without a fault, and leave `rest`. -/
def Env.deliversChunks (e : Env) (cs : List (Vector Byte 4)) (rest : List Byte) : Prop :=
  takeFilled (4 * cs.length) e.camBuf = (cs.map Vector.toList).flatten
    ∧ e.camBuf.drop (4 * cs.length) = rest ∧ ∀ f ∈ e.camRd.take cs.length, f = none

/-- No call of one scan raises `Fatal` (41_scanner.md R131: 18 pin calls, 23 sleeps, 8 samples). -/
def Env.scanCalm (e : Env) : Prop := clear 18 e.pin ∧ clear 23 e.clk ∧ ∀ a ∈ e.adc.take 8, a.isSample = true

/-- No call of one cycle raises `Fatal`, whatever the command: the two calls of the direction pin and the settle sleep
besides a scan's, and one write. The camera may fault as it likes. -/
def Env.cycleCalm (e : Env) : Prop :=
  clear 20 e.pin ∧ clear 24 e.clk ∧ clear 1 e.upWr ∧ ∀ a ∈ e.adc.take 8, a.isSample = true

/-! ## States after a sequence of primitive calls -/

/-- After reads of one byte each that answered `bs` and left `rest` in the buffer. -/
def afterReads (bs rest : List Byte) (s : State) : State :=
  { s with
    env := { s.env with camBuf := rest, camRd := s.env.camRd.drop bs.length }
    trace := (bs.map fun b => Event.camRead 1 [b]).reverse ++ s.trace }

/-- After reads of four bytes each that answered `cs`. -/
def afterChunks (cs : List (Vector Byte 4)) (rest : List Byte) (s : State) : State :=
  { s with
    env := { s.env with camBuf := rest, camRd := s.env.camRd.drop cs.length }
    trace := (cs.map fun c => Event.camRead 4 c.toList).reverse ++ s.trace }

/-- After a camera write that completed. -/
def afterCamWrite (bs : List Byte) (s : State) : State :=
  { s with env := { s.env with camWr := s.env.camWr.tail }, trace := .camWrite bs :: s.trace }

/-- What the analog input answers to the `k`-th read from here: what is laid down, or a free sample. -/
def sampleAt (s : State) (k : Nat) : Sample :=
  match s.env.adc[k]? with
  | some (.sample v) => v
  | _ => Config.freeSample (s.fresh + (k - s.env.adc.length))

/-- The events of one position of the scan (41_scanner.md R139). -/
def visitEvents (P : Profile) (v : Sample) : List Event :=
  [.pin .muxAdv P.muxAdvActive, .pin .muxAdv (!P.muxAdvActive), .sleep P.tClkSettle, .sleep P.tAdcSettle, .analog v]

/-- The 49 events of a scan, in call order (41_scanner.md R139). -/
def scanEvents (P : Profile) (v : Nat → Sample) : List Event :=
  [.pin .muxReset P.muxResetActive, .pin .muxReset (!P.muxResetActive)] ++ visitEvents P (v 0)
    ++ ([1, 2, 3, 4, 5, 6, 7].map fun k => Event.sleep P.tInterch :: visitEvents P (v k)).flatten

def Event.isPin : Event → Bool
  | .pin _ _ => true
  | _ => false

def Event.isSleep : Event → Bool
  | .sleep _ => true
  | _ => false

def Event.isAnalog : Event → Bool
  | .analog _ => true
  | _ => false

/-- The cause of the `Fatal` that the call of an event raises when it fails (00_scope.md R13); a call that raises none has none. -/
def Event.failure : Event → Option FatalCause
  | .upRead _ | .upWrite _ => some .uplink
  | .pin _ _ => some .gpio
  | .sleep _ => some .clock
  | .analog _ => some .analog
  | .camRead _ _ | .camWrite _ | .camFault _ | .diag _ | .fatal _ => none

/-- The first `n` events of a scan from here. -/
def scanFirst (s : State) (n : Nat) : List Event := (scanEvents s.profile (sampleAt s)).take n

/-- None of the first `n` calls of a scan raises `Fatal`. -/
def scanReaches (s : State) (n : Nat) : Prop :=
  clear ((scanFirst s n).countP Event.isPin) s.env.pin
    ∧ clear ((scanFirst s n).countP Event.isSleep) s.env.clk
    ∧ ∀ a ∈ s.env.adc.take ((scanFirst s n).countP Event.isAnalog), a.isSample = true

/-- The environment after the first `n` calls of a scan, with the multiplexer at `m` pulses. -/
def scanEnv (s : State) (n m : Nat) : Env :=
  { s.env with
    pin := s.env.pin.drop ((scanFirst s n).countP Event.isPin)
    clk := s.env.clk.drop ((scanFirst s n).countP Event.isSleep)
    adc := s.env.adc.drop ((scanFirst s n).countP Event.isAnalog)
    muxPulses := m }

/-- After a scan without a fault. -/
def afterScan (s : State) : State :=
  { s with
    pins := { s.pins with muxReset := !s.profile.muxResetActive, muxAdv := !s.profile.muxAdvActive }
    scn := { s.scn with
      ph := .done
      half := false
      k := 7
      s := #v[sampleAt s 0, sampleAt s 1, sampleAt s 2, sampleAt s 3,
        sampleAt s 4, sampleAt s 5, sampleAt s 6, sampleAt s 7] }
    env := { s.env with
      pin := s.env.pin.drop 18
      clk := s.env.clk.drop 23
      adc := s.env.adc.drop 8
      muxPulses := 8 }
    fresh := s.fresh + (8 - s.env.adc.length)
    trace := (scanEvents s.profile (sampleAt s)).reverse ++ s.trace }

/-- The numeric value of a sample. -/
def sampleValue (v : Sample) : ℚ := (v.num : ℚ) / (v.den : ℚ)

/-- After `SELECT` (42_selector.md R140): index and magnitude of the strongest sample. -/
def afterSelect (s : State) : State :=
  { s with scn := { s.scn with
      idxmax := argmaxOf s.scn.s
      mag := rescaleOf s.profile.signalScale s.scn.s[argmaxOf s.scn.s] } }

/-! ## Frames and flushes as streams -/

/-- A camera frame, apart from its headers. -/
structure WireFrame where
  command : Byte
  algorithm : Byte
  payload : List Byte
  ck : Byte
  deriving DecidableEq, Repr

/-- Descriptor and payload. -/
def WireFrame.inner (P : Profile) (f : WireFrame) : List Byte :=
  [f.command] ++ (if P.hasAlgo then [f.algorithm] else []) ++ [BitVec.ofNat 8 f.payload.length] ++ f.payload

/-- The checksum the framer computes: headers, descriptor and payload (30_encoding.md R97, 40_checksum.md R123). -/
def WireFrame.sum (P : Profile) (f : WireFrame) : Byte := checksum ([P.hdr1, P.hdr2] ++ f.inner P)

/-- The frame record the decode returns (43_framer.md R161, R162). -/
def WireFrame.record (P : Profile) (f : WireFrame) : Frame where
  command := if f.ck = f.sum P then f.command else f.command + 0x10
  algorithm := if P.hasAlgo then some f.algorithm else none
  length := BitVec.ofNat 8 f.payload.length
  payload := f.payload
  checksumReceived := f.ck
  checksumOk := f.ck = f.sum P

/-- The framer's registers after the frame, the second header having been found on read `att`. -/
def WireFrame.regs (P : Profile) (old : Framer) (att : Nat) (f : WireFrame) : Framer where
  ph := .idle
  att := att
  acc := f.sum P
  cmd := (f.record P).command
  alg := if P.hasAlgo then f.algorithm else old.alg
  len := BitVec.ofNat 8 f.payload.length
  idx := f.payload.length
  pay := writeFrom old.pay 0 f.payload
  ckrx := f.ck
  ckok := f.ck = f.sum P
  res := some (.ok (f.record P))

/-- `Decodes P old bs r new`: the bytes `bs`, and no more, are what one `FRAME_DECODE` takes from the channel; it returns
`r`, and takes the framer's registers from `old` to `new` (43_framer.md R164). -/
inductive Decodes (P : Profile) (old : Framer) : List Byte → FrameResult → Framer → Prop
  | noHeader1 (bs : List Byte) (hlen : bs.length = 32) (hno : ∀ b ∈ bs, b ≠ P.hdr1) :
    Decodes P old bs (.syncError .h1) { old with ph := .idle, att := 32, acc := 0, res := some (.syncError .h1) }
  | noHeader2 (pre bs : List Byte) (hpre : pre.length < 32) (hno1 : ∀ b ∈ pre, b ≠ P.hdr1)
    (hlen : bs.length = 32) (hno2 : ∀ b ∈ bs, b ≠ P.hdr2) :
    Decodes P old (pre ++ [P.hdr1] ++ bs) (.syncError .h2)
      { old with ph := .idle, att := 32, acc := P.hdr1, res := some (.syncError .h2) }
  | frame (pre gap : List Byte) (f : WireFrame) (hpre : pre.length < 32) (hno1 : ∀ b ∈ pre, b ≠ P.hdr1)
    (hgap : gap.length < 32) (hno2 : ∀ b ∈ gap, b ≠ P.hdr2) (hpay : f.payload.length ≤ 255) :
    Decodes P old (pre ++ [P.hdr1] ++ gap ++ [P.hdr2] ++ f.inner P ++ [f.ck]) (.ok (f.record P))
      (f.regs P old (gap.length + 1))

/-- After `n` completed reads of `w` bytes each and one more that faulted with `f` (20_memory.md R64, R85). How many bytes of the
buffer the fault takes is the environment's (log 6). -/
def afterFaultedReads (w n : Nat) (f : CamReadFault) (s : State) : State :=
  { s with
    env := { s.env with camBuf := s.env.camBuf.drop (w * n + f.lost), camRd := s.env.camRd.drop (n + 1) }
    trace := .camFault f.kind
      :: ((List.range n).map fun k => Event.camRead w (takeFilled w (s.env.camBuf.drop (w * k)))).reverse ++ s.trace }

/-- The first camera read to fault, counted from the next one, is the `n`-th, and its fault is `f`. -/
def Env.firstFault (e : Env) (n : Nat) (f : CamReadFault) : Prop :=
  (∀ x ∈ e.camRd.take n, x = none) ∧ e.camRd[n]? = some (some f)

/-- The chunk that ends a flush (30_encoding.md R100). -/
def emptyChunk : Vector Byte 4 := #v[0xFF, 0xFF, 0xFF, 0xFF]

/-- `Flushes max cs r`: the chunks `cs`, and no more, are what one `FLUSH` reads, and `r` is its result (44_flusher.md R181). -/
inductive Flushes (max : Nat) : List (Vector Byte 4) → FlushResult → Prop
  | drained (cs : List (Vector Byte 4)) (hn : ∀ c ∈ cs, c ≠ emptyChunk) (hlen : cs.length < max) :
    Flushes max (cs ++ [emptyChunk]) (.drained (cs.length + 1))
  | exhausted (cs : List (Vector Byte 4)) (hn : ∀ c ∈ cs, c ≠ emptyChunk) (hlen : cs.length = max) :
    Flushes max cs .exhausted

/-- The all-zero report (45_camera_protocol.md R205). -/
def zeroReport (P : Profile) : List Byte := List.replicate (if P.blockReportCk then 9 else 8) 0

/-- What an operation called by itself leaves when a camera transaction of it faults: DeviceAbsent is taken (log 14). -/
def afterAbsent (s : State) : State :=
  { s with connected := false, ccp := { s.ccp with ph := .done }, ret := .bytes (zeroReport s.profile) }

/-! ## One pass of the loop, part by part -/

/-- The six parts of a pass, each with its phase (46_arbiter.md R221). -/
def loopParts : List (ArbPh × Instr) :=
  [(.setRx, .setRx), (.waitCmd, .waitCmd), (.setTx, .setTx), (.dispatch, .dispatch), (.write, .writeResp), (.settle, .txSettle)]

/-- A part in its phase, and then `k`; a part that halts, or waits for the HOST, ends the pass where it is (46_arbiter.md
R223, R232). -/
def thenPart (q : ArbPh × Instr) (k : State → Host.Outcome State Fault Refusal) (s : State) :
    Host.Outcome State Fault Refusal :=
  match exec q.2 { s with arb := { s.arb with ph := q.1 } } with
  | .next u => if u.arb.halt = true ∨ (q.2 = .waitCmd ∧ s.env.up = []) then .next u else k u
  | .fault r => .fault r
  | .refused r => .refused r

/-- The parts one after another, each from the state the one before it answered; after the last the pass is at the top of
the loop again. -/
def runParts : List (ArbPh × Instr) → State → Host.Outcome State Fault Refusal
  | [], s => .next { s with arb := { s.arb with ph := .setRx } }
  | q :: qs, s => thenPart q (runParts qs) s

/-! ## The invariant of the sequencer -/

/-- In RECEIVE with the pin at the receive level (10_state.md R25). -/
def inReceive (s : State) : Prop := s.arb.mode = .receive ∧ s.pins.dir = !s.profile.dirTxLevel

/-- In TRANSMIT with the pin at the transmit level. -/
def inTransmit (s : State) : Prop := s.arb.mode = .transmit ∧ s.pins.dir = s.profile.dirTxLevel

/-- The size of the response to a command, which depends on the command and the profile only (46_arbiter.md R230, R234). -/
def respSize (P : Profile) (cmd : Byte) : Nat :=
  match uplinkCmd cmd with
  | .sigLo | .sigHi => if P.signalReportCk then 3 else 2
  | .camData => if P.blockReportCk then 9 else 8
  | .unrecognized => 0

/-- A point of the scan (41_scanner.md R131, R133): the frequency flag is the command's; the multiplexer has had one
pulse for each channel before `K`, and one more once the advance for `K` is over, so that it routes channel `K` when `K`
is sampled; before the reset pulse is over, nothing is known of it. -/
def scanPoint (s : State) : Prop :=
  (s.scn.freq = true ↔ uplinkCmd s.arb.cmd = .sigHi)
  ∧ match s.scn.ph with
    | .reset => True
    | .adv => s.env.muxPulses = s.scn.k.val
    | .interch => s.scn.half = false ∧ s.env.muxPulses = s.scn.k.val
    | .settleClk | .settleAdc | .sample => s.scn.half = false ∧ s.env.muxPulses = s.scn.k.val + 1
    | .idle | .done => False

/-- A read of the framer is due (43_framer.md R152 to R161): the search budget is not used up, a payload byte is
missing, and the decode has no result yet. -/
def framePoint (s : State) : Prop :=
  s.frm.res = none
  ∧ match s.frm.ph with
    | .h1 | .h2 => s.frm.att < Config.syncBudget
    | .cmd | .len | .ck => True
    | .algo => s.profile.hasAlgo = true
    | .pay => s.frm.idx < s.frm.len.toNat
    | .idle | .done => False

/-- A call of the camera path is due (45_camera_protocol.md R204): the handshake is made only while the camera is not
connected, the request only while it is. -/
def cameraPoint (s : State) : Prop :=
  match s.ccp.ph with
  | .knockTx => s.connected = false
  | .knockRx => s.connected = false ∧ framePoint s
  | .algTx => s.connected = false ∧ s.profile.hasAlgsel = true
  | .algRx => s.connected = false ∧ s.profile.hasAlgsel = true ∧ framePoint s
  | .reqTx => s.connected = true
  | .reqRx | .nestRx => s.connected = true ∧ framePoint s
  | .flush => s.connected = true ∧ s.flu.n < s.profile.flushMax
  | .idle | .done => False

/-- A point of the handler that the command byte selects (46_arbiter.md R225). -/
def handlerPoint (s : State) : Prop :=
  match uplinkCmd s.arb.cmd with
  | .sigLo | .sigHi => scanPoint s
  | .camData => cameraPoint s
  | .unrecognized => True

/-- The position is a point of the call tree (10_state.md R24), with the bus owned as that point needs it (R25,
46_arbiter.md R220), and the halt latched exactly in `A_HALTED`. A `FATAL_STOP` that is under way finds the bus in TRANSMIT
(R232; log 35). -/
structure Inv (s : State) : Prop where
  halt_iff : s.arb.halt = true ↔ s.arb.ph = .halted
  wait_receives : s.arb.ph = .waitCmd → inReceive s
  set_tx_receives : s.arb.ph = .setTx → inReceive s
  dispatch_transmits : s.arb.ph = .dispatch → inTransmit s ∧ handlerPoint s
  write_transmits : s.arb.ph = .write →
    inTransmit s ∧ s.arb.respLen = respSize s.profile s.arb.cmd ∧ uplinkCmd s.arb.cmd ≠ .unrecognized
  settle_transmits : s.arb.ph = .settle → inTransmit s ∧ s.arb.respLen = respSize s.profile s.arb.cmd
  halted_receives : s.arb.ph = .halted → s.arb.mode = .receive
  stopping_transmits : s.stopping ≠ none → s.arb.mode = .transmit ∧ s.arb.halt = false

/-- The sequencer is in charge: nothing is called from outside, and the profile has passed its checks. -/
def Running (s : State) : Prop := s.call = none ∧ s.profile.wf = true

/-! ## The trace (newest event first) -/

/-- The level of the last `EvPin(DIR, _)`. -/
def lastDir : List Event → Option Bool
  | [] => none
  | .pin .dir l :: _ => some l
  | _ :: older => lastDir older

/-- The number of `EvUpWrite` since the last `EvPin(DIR, _)`. -/
def writesSinceDir : List Event → Nat
  | [] => 0
  | .pin .dir _ :: _ => 0
  | .upWrite _ :: older => writesSinceDir older + 1
  | _ :: older => writesSinceDir older

/-- The number of `EvUpRead` since the last `EvPin(DIR, tx)`; none where there is no such event. -/
def readsSinceTx (tx : Bool) : List Event → Option Nat
  | [] => none
  | .pin .dir l :: older => if l = tx then some 0 else readsSinceTx tx older
  | .upRead _ :: older => (readsSinceTx tx older).map (· + 1)
  | _ :: older => readsSinceTx tx older

/-- The four invariants of 20_memory.md R70, at every event of the trace: (i) an `EvUpRead` has the receive level as the
last direction; (ii) an `EvUpWrite` the transmit level; (iii) an `EvPin(DIR, tx)` has exactly one `EvUpRead` since the
one before it; (iv) an `EvUpWrite` is the first since the last direction. -/
def traceOk (tx : Bool) : List Event → Bool
  | [] => true
  | .upRead _ :: older => traceOk tx older && lastDir older = some (!tx)
  | .upWrite _ :: older => traceOk tx older && lastDir older = some tx && writesSinceDir older = 0
  | .pin .dir l :: older => traceOk tx older && (l != tx || (readsSinceTx tx older).getD 1 = 1)
  | _ :: older => traceOk tx older

/-- The trace invariants with what the position adds to them, so that a step keeps them. -/
structure TraceInv (s : State) : Prop where
  ok : traceOk s.profile.dirTxLevel s.trace = true
  at_set_rx : s.arb.ph = .setRx → (readsSinceTx s.profile.dirTxLevel s.trace).getD 0 = 0
  at_wait : s.arb.ph = .waitCmd →
    lastDir s.trace = some (!s.profile.dirTxLevel) ∧ (readsSinceTx s.profile.dirTxLevel s.trace).getD 0 = 0
  at_set_tx : s.arb.ph = .setTx → (readsSinceTx s.profile.dirTxLevel s.trace).getD 1 = 1
  at_transmit : s.arb.ph = .dispatch ∨ s.arb.ph = .write →
    lastDir s.trace = some s.profile.dirTxLevel ∧ writesSinceDir s.trace = 0
      ∧ readsSinceTx s.profile.dirTxLevel s.trace = some 0
  at_settle : s.arb.ph = .settle → readsSinceTx s.profile.dirTxLevel s.trace = some 0

/-- Only the camera path's groups differ: `CONNECTED`, the framer, the flusher, the protocol, the camera's side of the
environment, the trace and what was returned. -/
def sameButCamera (s t : State) : Prop :=
  t = { s with
    connected := t.connected
    frm := t.frm
    flu := t.flu
    ccp := t.ccp
    env := { s.env with camBuf := t.env.camBuf, camRd := t.env.camRd, camWr := t.env.camWr }
    trace := t.trace
    ret := t.ret }

/-- A camera transaction, completed or not. -/
def Event.isCamera : Event → Bool
  | .camRead _ _ | .camWrite _ | .camFault _ => true
  | _ => false

/-- An event that no handler makes: the uplink and the direction pin belong to the arbiter's own steps. -/
def Event.isUplink : Event → Bool
  | .upRead _ | .upWrite _ | .pin .dir _ => true
  | _ => false

end Sys2Proof.Machine
end

