-- ==== Sys2Proof/Certificates/Slice0/Obligations.lean ====
section
/-! DEFINITION. The statements for the provers. Where an operation raises `Fatal`, the statement says that its outcome is
that of `FATAL_STOP` in the state after the failing call, whose event is the last (60_exceptions.md R259); where a camera
transaction of an operation called by itself faults, the outcome is `afterAbsent` (log 14). What an operation returns stands in
the model's own field `ret` (log 3). -/

section

open Sys2Proof Sys2Proof.Machine

/-! ## Checksum -/

/-- 40_checksum.md R121 (and R120): the sum in unbounded naturals, modulo 256; the operation returns it and nothing else
happens; the order of the bytes does not matter, nor do zero bytes. -/
def Obligations.ChecksumIsTheSumModulo256 : Prop :=
  ∀ (bs : List Byte) (s : State),
    (checksum bs).toNat = (bs.map BitVec.toNat).sum % 256
    ∧ exec (.checksum bs) s = .next { s with ret := .byte (checksum bs) }
    ∧ (∀ other, bs.Perm other → checksum other = checksum bs)
    ∧ (∀ a c, bs = a ++ c → checksum (a ++ [0] ++ c) = checksum bs)

/-- 40_checksum.md R122. -/
def Obligations.ChecksumOfConcatenation : Prop :=
  ∀ a b : List Byte, checksum (a ++ b) = checksum a + checksum b

/-- 40_checksum.md R123, R124: `ACC_STEP` adds to `ACC` and writes nothing else; `CK_VALIDATE` writes `CKOK`, true exactly
when the received checksum equals the accumulated one, and nothing else. -/
def Obligations.AccStepAndCkValidate : Prop :=
  ∀ (b : Byte) (s : State),
    exec (.accStep b) s = .next { s with frm := { s.frm with acc := s.frm.acc + b } }
    ∧ exec .ckValidate s = .next { s with frm := { s.frm with ckok := s.frm.ckrx = s.frm.acc } }

/-! ## Primitives -/

/-- 20_memory.md R62, 46_arbiter.md R223: in RECEIVE one byte is taken, recorded and returned, or written to `CMD`, and the bytes
behind it stay; or `Fatal(Uplink)` is raised; or, while the HOST is silent, the machine waits (the wait is a step to the
same state, log 5). -/
def Obligations.OneByteIsReadFromTheUplink : Prop :=
  ∀ s : State, s.arb.mode = .receive →
    (∀ b rest, s.env.up = .byte b :: rest →
      exec .upRead s = .next { s with
        env := { s.env with up := rest }, trace := .upRead b :: s.trace, ret := .byte b }
      ∧ exec .waitCmd s = .next { s with
        arb := { s.arb with cmd := b }, env := { s.env with up := rest }, trace := .upRead b :: s.trace })
    ∧ (∀ rest, s.env.up = .fatal :: rest → ∀ i ∈ [Instr.upRead, Instr.waitCmd],
      exec i s = exec (.fatalStop .uplink) { s with
        env := { s.env with up := rest }, trace := .fatal .uplink :: s.trace })
    ∧ (s.env.up = [] → exec .upRead s = .next s ∧ exec .waitCmd s = .next s)

/-- 20_memory.md R63: in TRANSMIT the whole sequence is written in one call, or `Fatal(Uplink)` is raised. -/
def Obligations.UpWriteWritesAll : Prop :=
  ∀ (bs : List Byte) (s : State), s.arb.mode = .transmit → bs.length ∈ [2, 3, 8, 9] →
    (s.env.upWrFails = false →
      exec (.upWrite bs) s = .next { s with
        env := { s.env with upWr := s.env.upWr.tail }, trace := .upWrite bs :: s.trace })
    ∧ (s.env.upWrFails = true →
      exec (.upWrite bs) s = exec (.fatalStop .uplink) { s with
        env := { s.env with upWr := s.env.upWr.tail }, trace := .fatal .uplink :: s.trace })

/-- The model's choice where a primitive is called outside its precondition (log 20; 20_memory.md R62, R63 and 46_arbiter.md R220
give the preconditions, R64, R65 the operands): a fault for the mode, a refusal for the operand. The mode's faults are those of
`WAIT_CMD` and of `WRITE_RESP` with something to write too. -/
def Obligations.PrimitiveOutsideItsDomainStops : Prop :=
  ∀ s : State,
    (s.arb.mode = .transmit →
      exec .upRead s = .fault .readWhileTransmit ∧ exec .waitCmd s = .fault .readWhileTransmit)
    ∧ (s.arb.mode = .receive → 0 < s.arb.respLen → exec .writeResp s = .fault .writeWhileReceive)
    ∧ (∀ bs, bs.length ∈ [2, 3, 8, 9] → s.arb.mode = .receive → exec (.upWrite bs) s = .fault .writeWhileReceive)
    ∧ (∀ bs, bs.length ∉ [2, 3, 8, 9] → exec (.upWrite bs) s = .refused .operandOutOfDomain)
    ∧ (∀ n, n ∉ [1, 4] → exec (.camRead n) s = .refused .operandOutOfDomain)
    ∧ exec (.camWrite []) s = .refused .operandOutOfDomain

/-- 20_memory.md R64, R85: exactly `n` bytes, from the front of the camera's buffer, 0xFF where it is exhausted; or a
fault, taken by DeviceAbsent (logs 6, 14). -/
def Obligations.CamReadReturnsExactlyN : Prop :=
  ∀ (n : Nat) (s : State), n ∈ [1, 4] →
    (s.env.camRdFault = none → ∃ bs : List Byte, bs.length = n
      ∧ (∀ i, i < n → bs[i]? = some (s.env.camBuf.getD i 0xFF))
      ∧ exec (.camRead n) s = .next { s with
          env := { s.env with camBuf := s.env.camBuf.drop n, camRd := s.env.camRd.tail }
          trace := .camRead n bs :: s.trace
          ret := .bytes bs })
    ∧ (∀ f, s.env.camRdFault = some f →
      exec (.camRead n) s = .next (afterAbsent { s with
        env := { s.env with camBuf := s.env.camBuf.drop f.lost, camRd := s.env.camRd.tail }
        trace := .camFault f.kind :: s.trace }))

/-- 20_memory.md R65: the whole sequence in one transaction, or a fault of one of two kinds, taken by DeviceAbsent (log 14). That
a faulted write leaves the camera's buffer as it was is the model's choice (log 6; 93_implementation_defined.md U25). -/
def Obligations.CamWriteWritesAll : Prop :=
  ∀ (bs : List Byte) (s : State), bs ≠ [] →
    (s.env.camWrFault = none →
      exec (.camWrite bs) s = .next { s with
        env := { s.env with camWr := s.env.camWr.tail }, trace := .camWrite bs :: s.trace })
    ∧ (∀ f, s.env.camWrFault = some f → f.kind ≠ .zeroLength
      ∧ exec (.camWrite bs) s = .next (afterAbsent { s with
          env := { s.env with camWr := s.env.camWr.tail }, trace := .camFault f.kind :: s.trace }))

/-- 20_memory.md R66: the pin's level register, that one only, whatever it held; or `Fatal(Gpio)`, the level register
being left alone (log 22). -/
def Obligations.PinSetDrivesOnePin : Prop :=
  ∀ (l : Bool) (s : State),
    (s.env.pinFails = false →
      exec (.pinSet .dir l) s = .next { s with
        pins := { s.pins with dir := l }, env := { s.env with pin := s.env.pin.tail }, trace := .pin .dir l :: s.trace }
      ∧ exec (.pinSet .muxReset l) s = .next { s with
        pins := { s.pins with muxReset := l }, env := { s.env with pin := s.env.pin.tail }
        trace := .pin .muxReset l :: s.trace }
      ∧ exec (.pinSet .muxAdv l) s = .next { s with
        pins := { s.pins with muxAdv := l }, env := { s.env with pin := s.env.pin.tail }
        trace := .pin .muxAdv l :: s.trace })
    ∧ (s.env.pinFails = true → ∀ p,
      exec (.pinSet p l) s = exec (.fatalStop .gpio) { s with
        env := { s.env with pin := s.env.pin.tail }, trace := .fatal .gpio :: s.trace })

/-- 20_memory.md R67: the sample laid down, or any sample at all where none is (a free value, log 7); or `Fatal(Analog)`. -/
def Obligations.AnalogReadReturnsASample : Prop :=
  ∀ s : State,
    (∀ v rest, s.env.adc = .sample v :: rest →
      exec .analogRead s = .next { s with
        env := { s.env with adc := rest }, trace := .analog v :: s.trace, ret := .sample v })
    ∧ (s.env.adc = [] → ∃ v, exec .analogRead s = .next { s with
        fresh := s.fresh + 1, trace := .analog v :: s.trace, ret := .sample v })
    ∧ (∀ rest, s.env.adc = .fatal :: rest →
      exec .analogRead s = exec (.fatalStop .analog) { s with
        env := { s.env with adc := rest }, trace := .fatal .analog :: s.trace })

/-- 20_memory.md R68, R69: `Sleep` is an event and nothing else, or `Fatal(Clock)`; `Diag` is an event and never fails. -/
def Obligations.SleepAndDiagAreEventsOnly : Prop :=
  ∀ s : State,
    (∀ d, s.env.clkFails = false →
      exec (.sleep d) s = .next { s with env := { s.env with clk := s.env.clk.tail }, trace := .sleep d :: s.trace })
    ∧ (∀ d, s.env.clkFails = true →
      exec (.sleep d) s = exec (.fatalStop .clock) { s with
        env := { s.env with clk := s.env.clk.tail }, trace := .fatal .clock :: s.trace })
    ∧ (∀ e, exec (.diag e) s = .next { s with trace := .diag e :: s.trace })

/-- 46_arbiter.md R232: from RECEIVE nothing is driven; from TRANSMIT the pin is put back to the receive level, best
effort: when that fails too, the failure is swallowed and the level is any level (a free value, log 11). Then the halt,
its cause and the phase are latched, and nothing else is written. -/
def Obligations.FatalStopRestoresAndLatches : Prop :=
  ∀ (c : FatalCause) (s : State),
    (s.arb.mode = .receive →
      exec (.fatalStop c) s = .next { s with arb := { s.arb with halt := true, haltCause := c, ph := .halted } })
    ∧ (s.arb.mode = .transmit → s.env.pinFails = false →
      exec (.fatalStop c) s = .next { s with
        arb := { s.arb with mode := .receive, halt := true, haltCause := c, ph := .halted }
        pins := { s.pins with dir := !s.profile.dirTxLevel }
        env := { s.env with pin := s.env.pin.tail }
        trace := .pin .dir (!s.profile.dirTxLevel) :: s.trace })
    ∧ (s.arb.mode = .transmit → s.env.pinFails = true → ∃ l,
      exec (.fatalStop c) s = .next { s with
        arb := { s.arb with mode := .receive, halt := true, haltCause := c, ph := .halted }
        pins := { s.pins with dir := l }
        env := { s.env with pin := s.env.pin.tail }
        fresh := s.fresh + 1
        trace := .fatal .gpio :: s.trace })

/-! ## Scanner -/

/-- 41_scanner.md R132 to R135: a pulse asserts, then releases; the reset leaves the multiplexer without a pulse, an advance
gives it one more (the counter is log 23's); the settle is two sleeps, clock first; the sample goes into `S[K]`, every other
sample being left. The model's choices: SETTLE writes `SCN_PH` (log 39); a pulse sets the model's own `half` at its first
call and clears it at its second (log 15); a `PinSet` that fails leaves its level register (log 22); with no answer laid down
the sample is a free value (log 7). Nothing else changes. Where a call raises `Fatal`, the part stops there. -/
def Obligations.PartsOfAScan : Prop :=
  ∀ s : State,
    (clear 2 s.env.pin →
      exec .muxResetPulse s = .next { s with
        pins := { s.pins with muxReset := !s.profile.muxResetActive }
        scn := { s.scn with half := false }
        env := { s.env with pin := s.env.pin.drop 2, muxPulses := 0 }
        trace := .pin .muxReset (!s.profile.muxResetActive) :: .pin .muxReset s.profile.muxResetActive :: s.trace }
      ∧ exec .muxAdvancePulse s = .next { s with
        pins := { s.pins with muxAdv := !s.profile.muxAdvActive }
        scn := { s.scn with half := false }
        env := { s.env with pin := s.env.pin.drop 2, muxPulses := s.env.muxPulses + 1 }
        trace := .pin .muxAdv (!s.profile.muxAdvActive) :: .pin .muxAdv s.profile.muxAdvActive :: s.trace })
    ∧ (s.env.pinFails = true → ∀ i ∈ [Instr.muxResetPulse, .muxAdvancePulse],
      exec i s = exec (.fatalStop .gpio) { s with
        env := { s.env with pin := s.env.pin.tail }, trace := .fatal .gpio :: s.trace })
    ∧ (∀ rest, s.env.pin = false :: true :: rest →
      exec .muxResetPulse s = exec (.fatalStop .gpio) { s with
        pins := { s.pins with muxReset := s.profile.muxResetActive }
        scn := { s.scn with half := true }
        env := { s.env with pin := rest }
        trace := .fatal .gpio :: .pin .muxReset s.profile.muxResetActive :: s.trace }
      ∧ exec .muxAdvancePulse s = exec (.fatalStop .gpio) { s with
        pins := { s.pins with muxAdv := s.profile.muxAdvActive }
        scn := { s.scn with half := true }
        env := { s.env with pin := rest }
        trace := .fatal .gpio :: .pin .muxAdv s.profile.muxAdvActive :: s.trace })
    ∧ (clear 2 s.env.clk → exec .settle s = .next { s with
        scn := { s.scn with ph := .settleAdc }
        env := { s.env with clk := s.env.clk.drop 2 }
        trace := .sleep s.profile.tAdcSettle :: .sleep s.profile.tClkSettle :: s.trace })
    ∧ (s.env.clkFails = true → exec .settle s = exec (.fatalStop .clock) { s with
        scn := { s.scn with ph := .settleClk }
        env := { s.env with clk := s.env.clk.tail }
        trace := .fatal .clock :: s.trace })
    ∧ (∀ rest, s.env.clk = false :: true :: rest → exec .settle s = exec (.fatalStop .clock) { s with
        scn := { s.scn with ph := .settleAdc }
        env := { s.env with clk := rest }
        trace := .fatal .clock :: .sleep s.profile.tClkSettle :: s.trace })
    ∧ ((∀ a ∈ s.env.adc.take 1, a.isSample = true) → exec .sample s = .next { s with
        scn := { s.scn with s := s.scn.s.set s.scn.k (sampleAt s 0) }
        env := { s.env with adc := s.env.adc.drop 1 }
        fresh := s.fresh + (1 - s.env.adc.length)
        trace := .analog (sampleAt s 0) :: s.trace })
    ∧ (∀ rest, s.env.adc = .fatal :: rest → exec .sample s = exec (.fatalStop .analog) { s with
        env := { s.env with adc := rest }, trace := .fatal .analog :: s.trace })

/-- 41_scanner.md R130, R131, R136, R137, R139: the eight samples in channel order and the 49 events of the trace, every other
register being left (`afterScan`); when a call raises `Fatal`, the scan stops at the first that does: the events of the
calls before it have happened, its own is the last before `FATAL_STOP`, and only the scanner's registers, its pins and the
answers of the calls made have changed. The counters of free samples and of pulses, and `half`, are the model's own (logs
7, 23, 15); so is that the sequence returned stands in `S` and not in `ret` (log 3). -/
def Obligations.ScanTakesEightSamplesOrStops : Prop :=
  ∀ s : State,
    (s.env.scanCalm → exec .scan s = .next (afterScan s))
    ∧ (¬ s.env.scanCalm → ∃ (n : Nat) (e : Event) (c : FatalCause) (scn : Scanner) (pins : Pins) (m : Nat),
      scanReaches s n ∧ ¬ scanReaches s (n + 1) ∧ (scanEvents s.profile (sampleAt s))[n]? = some e ∧ e.failure = some c
      ∧ pins.dir = s.pins.dir
      ∧ exec .scan s = exec (.fatalStop c) { s with
          scn := scn
          pins := pins
          env := scanEnv s (n + 1) m
          fresh := s.fresh + ((scanFirst s n).countP Event.isAnalog - s.env.adc.length)
          trace := .fatal c :: (scanFirst s n).reverse ++ s.trace })

/-! ## Selector -/

/-- 42_selector.md R141: the smallest index achieving the maximum, for all eight-element sequences; only `IDXMAX` is written. -/
def Obligations.ArgmaxIsTheSmallestMaximum : Prop :=
  ∀ s : State, ∃ i : Fin 8,
    (∀ k : Fin 8, sampleValue s.scn.s[k] ≤ sampleValue s.scn.s[i])
    ∧ (∀ k : Fin 8, k < i → sampleValue s.scn.s[k] < sampleValue s.scn.s[i])
    ∧ exec .argmax s = .next { s with scn := { s.scn with idxmax := i }, ret := .index i }

/-- 42_selector.md R142, R143 (rounding down is the spec's decision D24): the floor of the product, masked to seven bits; the
unmasked value is at most the scale, so that under 127 the mask changes nothing, under 128 it changes only a full-scale
sample, to 0; only `MAG` is written. -/
def Obligations.RescaleFloorsAndMasks : Prop :=
  ∀ (v : Sample) (s : State),
    exec (.rescale v) s = .next { s with
      scn := { s.scn with mag := rescaleOf s.profile.signalScale v }, ret := .mag (rescaleOf s.profile.signalScale v) }
    ∧ (∀ scale : Nat,
      (rescaleOf scale v).toNat = ⌊sampleValue v * (scale : ℚ)⌋₊ % 128 ∧ ⌊sampleValue v * (scale : ℚ)⌋₊ ≤ scale)
    ∧ (rescaleOf 127 v).toNat = ⌊sampleValue v * 127⌋₊
    ∧ (sampleValue v < 1 → (rescaleOf 128 v).toNat = ⌊sampleValue v * 128⌋₊)
    ∧ (sampleValue v = 1 → rescaleOf 128 v = 0)

/-- 42_selector.md R145, R144, 30_encoding.md R92, R106: the two bytes of the report bit by bit, and the third, the sum of
the two, exactly when the profile has it. `PACK` writes no register; `SELECT` writes `IDXMAX` and `MAG`. -/
def Obligations.PackAndSelect : Prop :=
  ∀ (freq : Bool) (s : State), ∃ b0 b1 c0 c1 : Byte,
    b0.toNat = s.scn.idxmax.val ∧ b1.toNat = s.scn.mag.toNat + (if freq then 128 else 0)
    ∧ exec (.pack freq) s = .next { s with ret := .bytes [b0, b1] }
    ∧ c0.toNat = (argmaxOf s.scn.s).val
    ∧ c1.toNat = (rescaleOf s.profile.signalScale s.scn.s[argmaxOf s.scn.s]).toNat + (if freq then 128 else 0)
    ∧ exec (.select freq) s = .next { afterSelect s with
        ret := .bytes (if s.profile.signalReportCk then [c0, c1, c0 + c1] else [c0, c1]) }

/-- 42_selector.md R146, 46_arbiter.md R226, R227: the flag is the command's, one scan, one selection; the report is returned,
or becomes the response, with its length in `RESP_LEN` (log 43). When a call of the scan raises `Fatal`, it passes through
(41_scanner.md R137): the outcome is that of the scan, with the flag written. What a scan leaves in the model's own counters and
`half` is logs 7, 23, 15. -/
def Obligations.SignalIsScanThenSelect : Prop :=
  ∀ (s : State) (freq : Bool),
    (s.env.scanCalm → ∃ report : List Byte,
      (let t := afterSelect (afterScan { s with scn := { s.scn with freq := freq } })
       exec (.select freq) t = .next { t with ret := .bytes report }
       ∧ exec (.signal freq) s = .next { t with ret := .bytes report }
       ∧ exec (if freq then .sigHi else .sigLo) s = .next (loadResp report t)))
    ∧ (¬ s.env.scanCalm → ∀ i ∈ [Instr.signal freq, if freq then .sigHi else .sigLo],
      exec i s = exec .scan { s with scn := { s.scn with freq := freq } })

/-! ## Framer -/

/-- 43_framer.md R152 to R156 (the budget's reading is the spec's decision D3): a header met within 32 reads, the 32nd
included, is summed and ends the search; 32 reads without it abort; what is skipped is not summed. That the start of a
decode empties `RES` is the model's choice (log 12). Only the framer's registers change, and the channel. -/
def Obligations.HeaderSearches : Prop :=
  ∀ (s : State) (skipped rest : List Byte),
    (skipped.length < 32 → (∀ b ∈ skipped, b ≠ s.profile.hdr1) → s.env.delivers (skipped ++ [s.profile.hdr1]) rest →
      exec .searchH1 s = .next (afterReads (skipped ++ [s.profile.hdr1]) rest { s with
        frm := { s.frm with ph := .h2, acc := s.profile.hdr1, att := 0, res := none } }))
    ∧ (skipped.length = 32 → (∀ b ∈ skipped, b ≠ s.profile.hdr1) → s.env.delivers skipped rest →
      exec .searchH1 s = .next (afterReads skipped rest { s with
        frm := { s.frm with ph := .done, acc := 0, att := 32, res := some (.syncError .h1) } }))
    ∧ (skipped.length < 32 → (∀ b ∈ skipped, b ≠ s.profile.hdr2) → s.env.delivers (skipped ++ [s.profile.hdr2]) rest →
      exec .searchH2 s = .next (afterReads (skipped ++ [s.profile.hdr2]) rest { s with
        frm := { s.frm with ph := .cmd, acc := s.frm.acc + s.profile.hdr2, att := skipped.length + 1 } }))
    ∧ (skipped.length = 32 → (∀ b ∈ skipped, b ≠ s.profile.hdr2) → s.env.delivers skipped rest →
      exec .searchH2 s = .next (afterReads skipped rest { s with
        frm := { s.frm with ph := .done, att := 32, res := some (.syncError .h2) } }))

/-- 43_framer.md R157, R158, R159. That READ_ALGO called without `HAS_ALGO` enters `F_LEN` is the model's choice (log 19). -/
def Obligations.DescriptorBytes : Prop :=
  ∀ (s : State) (b : Byte) (rest : List Byte), s.env.delivers [b] rest →
    exec .readCmd s = .next (afterReads [b] rest { s with
      frm := { s.frm with cmd := b, acc := s.frm.acc + b, ph := if s.profile.hasAlgo then .algo else .len } })
    ∧ (s.profile.hasAlgo = true → exec .readAlgo s = .next (afterReads [b] rest { s with
      frm := { s.frm with alg := b, acc := s.frm.acc + b, ph := .len } }))
    ∧ (s.profile.hasAlgo = false → exec .readAlgo s = .next { s with frm := { s.frm with ph := .len } })
    ∧ exec .readLen s = .next (afterReads [b] rest { s with
      frm := { s.frm with len := b, acc := s.frm.acc + b, idx := 0, ph := if b = 0 then .ck else .pay } })

/-- 43_framer.md R160, from any fill index: exactly the missing bytes are read, stored in arrival order and summed; no other
element of `PAY` changes. -/
def Obligations.PayloadIsReassembled : Prop :=
  ∀ (s : State) (bs rest : List Byte), bs.length = s.frm.len.toNat - s.frm.idx → s.env.delivers bs rest →
    exec .readPayload s = .next (afterReads bs rest { s with
      frm := { s.frm with
        pay := writeFrom s.frm.pay s.frm.idx bs
        idx := s.frm.idx + bs.length
        acc := s.frm.acc + checksum bs
        ph := .ck } })
    ∧ ∀ (i : Nat) (h : i < 255), (writeFrom s.frm.pay s.frm.idx bs)[i]
        = if s.frm.idx ≤ i then bs[i - s.frm.idx]?.getD s.frm.pay[i] else s.frm.pay[i]

/-- 43_framer.md R161: the checksum byte is not summed; a mismatch adds 0x10 to the command and changes nothing else of the
frame. -/
def Obligations.ChecksumByteAndTag : Prop :=
  ∀ s : State,
    (∀ b rest, s.env.delivers [b] rest → exec .readCk s = .next (afterReads [b] rest { s with
      frm := { s.frm with ckrx := b, ckok := b = s.frm.acc } }))
    ∧ exec .tagDegraded s = .next { s with frm := { s.frm with
        cmd := if s.frm.ckok then s.frm.cmd else s.frm.cmd + 0x10, ph := .done } }

/-- 43_framer.md R162: after an abort the result is the abort's; otherwise it is the frame read from the registers; the
framer returns to idle. That the abort is told by a sync error in `RES`, and that no result or an older frame there is
none, is the model's choice (log 12). -/
def Obligations.ResultIsTheFrameOrTheAbort : Prop :=
  ∀ s : State,
    (∀ code, s.frm.res = some (.syncError code) → exec .result s = .next { s with
      frm := { s.frm with ph := .idle }, ret := .frame (.syncError code) })
    ∧ ((∀ code, s.frm.res ≠ some (.syncError code)) → ∃ f : Frame,
      f.command = s.frm.cmd ∧ f.algorithm = (if s.profile.hasAlgo then some s.frm.alg else none)
      ∧ f.length = s.frm.len ∧ f.payload.length = s.frm.len.toNat
      ∧ (∀ (i : Nat) (h : i < 255), i < s.frm.len.toNat → f.payload[i]? = some s.frm.pay[i])
      ∧ f.checksumReceived = s.frm.ckrx ∧ f.checksumOk = s.frm.ckok
      ∧ exec .result s = .next { s with frm := { s.frm with res := some (.ok f), ph := .idle }, ret := .frame (.ok f) })

/-- 43_framer.md R163, 30_encoding.md R99: the rendering of the two codes; the rows of the sentinels are the aborts that
they render (log 17). -/
def Obligations.Sentinels : Prop :=
  ∀ s : State,
    exec (.sentinelBytes .h1) s = .next { s with ret := .bytes [0xDE, 0xAD, 0x01] }
    ∧ exec (.sentinelBytes .h2) s = .next { s with ret := .bytes [0xDE, 0xAD, 0x02] }
    ∧ exec .sentinelH1 s = .next { s with
        frm := { s.frm with ph := .done, res := some (.syncError .h1) }, ret := .bytes [0xDE, 0xAD, 0x01] }
    ∧ exec .sentinelH2 s = .next { s with
        frm := { s.frm with ph := .done, res := some (.syncError .h2) }, ret := .bytes [0xDE, 0xAD, 0x02] }

/-- 43_framer.md R164, for every stream a decode can meet: both aborts, and every frame behind any skippable bytes, with its
result, every register, the bytes taken and those left. -/
def Obligations.FrameDecodeOfEveryStream : Prop :=
  ∀ (s : State) (bs rest : List Byte) (r : FrameResult) (regs : Framer),
    Decodes s.profile s.frm bs r regs → s.env.delivers bs rest →
    exec .frameDecode s = .next (afterReads bs rest { s with frm := regs, ret := .frame r })

/-- 43_framer.md R150, R166, R167, 30_encoding.md R109: a decode always ends, after at most 323 bytes (322 without the
algorithm byte), as one of those streams; or the first read that faults ends it at once: the reads before it have completed,
the fault is the last event, and only the framer's registers and the channel have changed besides what DeviceAbsent does
(60_exceptions.md R259; logs 6, 14). What the framer's registers then hold, which nothing reads again, is not said. -/
def Obligations.FrameDecodeAlwaysEnds : Prop :=
  ∀ s : State,
    (∃ bs rest r regs, Decodes s.profile s.frm bs r regs ∧ s.env.delivers bs rest
      ∧ bs.length ≤ (if s.profile.hasAlgo then 323 else 322)
      ∧ exec .frameDecode s = .next (afterReads bs rest { s with frm := regs, ret := .frame r }))
    ∨ ∃ (n : Nat) (f : CamReadFault) (regs : Framer), s.env.firstFault n f
      ∧ n < (if s.profile.hasAlgo then 323 else 322)
      ∧ exec .frameDecode s = .next (afterAbsent (afterFaultedReads 1 n f { s with frm := regs }))

/-- 43_framer.md R170: a good frame behind fewer than 32 garbage bytes decodes untagged; with a wrong checksum byte it still
decodes, the command 0x10 higher; 32 bytes without the first header give the first sync error. -/
def Obligations.FrameDecodeProperties : Prop :=
  ∀ (s : State) (garbage rest : List Byte) (f : WireFrame),
    (garbage.length < 32 → (∀ b ∈ garbage, b ≠ s.profile.hdr1) → f.payload.length ≤ 255 →
      s.env.delivers (garbage ++ [s.profile.hdr1, s.profile.hdr2] ++ f.inner s.profile ++ [f.ck]) rest →
      ∃ t g, exec .frameDecode s = .next t ∧ t.ret = .frame (.ok g) ∧ g.payload = f.payload ∧ t.env.camBuf = rest
        ∧ (f.ck = checksum ([s.profile.hdr1, s.profile.hdr2] ++ f.inner s.profile) →
            g.command = f.command ∧ g.checksumOk = true)
        ∧ (f.ck ≠ checksum ([s.profile.hdr1, s.profile.hdr2] ++ f.inner s.profile) →
            g.command = f.command + 0x10 ∧ g.checksumOk = false))
    ∧ (garbage.length = 32 → (∀ b ∈ garbage, b ≠ s.profile.hdr1) → s.env.delivers garbage rest →
      ∃ t, exec .frameDecode s = .next t ∧ t.ret = .frame (.syncError .h1)
        ∧ exec (.sentinelBytes .h1) s = .next { s with ret := .bytes [0xDE, 0xAD, 0x01] })

/-- The row CAMERA_FRAME (30_encoding.md R94; log 17): the frame arrives whole in front of what the camera has, and is decoded. -/
def Obligations.CameraFrameIsDecoded : Prop :=
  ∀ (s : State) (command : Byte) (algorithm : Option Byte) (payload : List Byte) (ck : Byte),
    (Instr.cameraFrame command algorithm payload ck).wellFormed s.profile = true →
    (let f : WireFrame := ⟨command, algorithm.getD 0, payload, ck⟩
     let bytes := [s.profile.hdr1, s.profile.hdr2] ++ f.inner s.profile ++ [ck]
     encode s.profile (.cameraFrame command algorithm payload ck) = some (.cf, bytes)
     ∧ ((∀ x ∈ s.env.camRd.take bytes.length, x = none) →
      exec (.cameraFrame command algorithm payload ck) s = .next (afterReads bytes s.env.camBuf { s with
        frm := f.regs s.profile s.frm 1, ret := .frame (.ok (f.record s.profile)) })))

/-! ## Flusher -/

/-- 44_flusher.md R181, R182: chunks are read until one is empty or the bound is reached; the last one is kept and they are
counted; nothing else changes. -/
def Obligations.FlushReadsToAnEmptyChunk : Prop :=
  ∀ (s : State) (cs : List (Vector Byte 4)) (last : Vector Byte 4) (rest : List Byte) (r : FlushResult),
    Flushes s.profile.flushMax (cs ++ [last]) r → s.env.deliversChunks (cs ++ [last]) rest →
    exec .flush s = .next (afterChunks (cs ++ [last]) rest { s with
      flu := { chunk := last, n := cs.length + 1 }, ret := .flush r })

/-- 44_flusher.md R183, R184: a flush always ends within its bound, or at the first read that faults: the chunks before it have
been read, none of them empty, the last of them is in `FL` and they are counted, and the fault is the last event
(60_exceptions.md R259; logs 6, 14). -/
def Obligations.FlushAlwaysEnds : Prop :=
  ∀ s : State, 1 ≤ s.profile.flushMax →
    (∃ cs last rest r, Flushes s.profile.flushMax (cs ++ [last]) r ∧ s.env.deliversChunks (cs ++ [last]) rest
      ∧ cs.length + 1 ≤ s.profile.flushMax
      ∧ exec .flush s = .next (afterChunks (cs ++ [last]) rest { s with
          flu := { chunk := last, n := cs.length + 1 }, ret := .flush r }))
    ∨ ∃ (n : Nat) (f : CamReadFault) (chunk : Vector Byte 4), s.env.firstFault n f ∧ n < s.profile.flushMax
      ∧ (∀ k < n, takeFilled 4 (s.env.camBuf.drop (4 * k)) ≠ emptyChunk.toList)
      ∧ (n = 0 → chunk = s.flu.chunk)
      ∧ (∀ k, n = k + 1 → chunk.toList = takeFilled 4 (s.env.camBuf.drop (4 * k)))
      ∧ exec .flush s = .next (afterAbsent (afterFaultedReads 4 n f { s with flu := { chunk := chunk, n := n } }))

/-- The rows CHUNK_EMPTY and CHUNK_DATA (44_flusher.md R181 to R183; log 17). Below the bound the chunk is stored and counted; an
empty one drains, any other reads on or, when it is the last, exhausts. At the bound the loop takes no chunk: the row stores
and counts nothing and answers `Exhausted` (log 37). That `ret` is `unit` where the flush reads on is the model's choice (log 3). No
operation takes `FL_N` out of the range of 10_state.md R33. -/
def Obligations.ChunkRows : Prop :=
  ∀ s : State,
    (s.flu.n < s.profile.flushMax →
      exec .chunkEmpty s = .next { s with
        flu := { chunk := emptyChunk, n := s.flu.n + 1 }, ret := .flush (.drained (s.flu.n + 1)) }
      ∧ ∀ a b c d : Byte, (Instr.chunkData a b c d).wellFormed s.profile = true →
        exec (.chunkData a b c d) s = .next { s with
          flu := { chunk := #v[a, b, c, d], n := s.flu.n + 1 }
          ret := if s.flu.n + 1 < s.profile.flushMax then .unit else .flush .exhausted })
    ∧ (s.profile.flushMax ≤ s.flu.n →
      exec .chunkEmpty s = .next { s with ret := .flush .exhausted }
      ∧ ∀ a b c d : Byte, exec (.chunkData a b c d) s = .next { s with ret := .flush .exhausted })
    ∧ (s.flu.n ≤ s.profile.flushMax → ∀ (i : Instr) (t : State), exec i s = .next t →
      t.flu.n ≤ t.profile.flushMax)

/-! ## Camera protocol -/

/-- The rows of the request frames (30_encoding.md R101) are written as stored, in one transaction, the select frame only when
the profile has it (log 19); a well-formed report of the rows SIGNAL_REPORT and BLOCK_REPORT (R92, R93; log 17) becomes the
response, byte for byte as it is encoded. -/
def Obligations.EmittedFormats : Prop :=
  ∀ s : State,
    (s.env.camWrFault = none →
      exec .txKnock s = .next (afterCamWrite s.profile.txKnock s)
      ∧ exec .txReqblk s = .next (afterCamWrite s.profile.txReqblk s)
      ∧ (s.profile.hasAlgsel = true → exec .txAlgsel s = .next (afterCamWrite s.profile.txAlgsel s)))
    ∧ (s.profile.hasAlgsel = false → exec .txAlgsel s = .next s)
    ∧ (∀ (index : BitVec 3) (freq : Bool) (mag : BitVec 7) (ck : Option Byte),
      (Instr.signalReport index freq mag ck).wellFormed s.profile = true → ∃ bytes,
        encode s.profile (.signalReport index freq mag ck) = some (.sr, bytes)
        ∧ exec (.signalReport index freq mag ck) s = .next { s with
            arb := { s.arb with resp := writeFrom s.arb.resp 0 bytes, respLen := bytes.length } })
    ∧ (∀ (b : Block) (ck : Option Byte), (Instr.blockReport b ck).wellFormed s.profile = true → ∃ bytes,
        encode s.profile (.blockReport b ck) = some (.br, bytes)
        ∧ exec (.blockReport b ck) s = .next { s with
            arb := { s.arb with resp := writeFrom s.arb.resp 0 bytes, respLen := bytes.length } })

/-- 45_camera_protocol.md R191, R192, R194: one write, one decode, one compare of the whole command; an abort never matches.
`CONNECTED` is not written here. -/
def Obligations.KnockAndAlgsel : Prop :=
  ∀ (s : State) (bs rest : List Byte) (r : FrameResult) (regs : Framer) (code : Bool),
    s.env.camWrFault = none → Decodes s.profile s.frm bs r regs → s.env.delivers bs rest →
    (code = true ↔ ∃ f, r = .ok f ∧ f.command = s.profile.cmdOk) →
    exec .knock s = .next (afterReads bs rest (afterCamWrite s.profile.txKnock { s with
      frm := regs, ccp := { s.ccp with ph := .knockRx }, ret := .bool code }))
    ∧ (s.profile.hasAlgsel = true →
      exec .algsel s = .next (afterReads bs rest (afterCamWrite s.profile.txAlgsel { s with
        frm := regs, ccp := { s.ccp with ph := .algRx }, ret := .bool code })))
    ∧ (s.profile.hasAlgsel = false → exec .algsel s = .next { s with ret := .bool true })

/-- 45_camera_protocol.md R195, R193, R194: a handshake always ends, a fault being taken by
DeviceAbsent (log 14); knock first; a failed knock ends it; else select, when
the profile has it; the outcome of the last exchange made is `CONNECTED`. -/
def Obligations.HandshakeSetsConnected : Prop :=
  ∀ s : State, (∃ u, exec .handshake s = .next u)
    ∧ ∀ (t : State) (known : Bool), exec .knock s = .next t → t.ret = .bool known →
      (known = false → exec .handshake s = .next { t with connected := false, ret := s.ret })
      ∧ (known = true → s.profile.hasAlgsel = false →
        exec .handshake s = .next { t with connected := true, ret := s.ret })
      ∧ (∀ (u : State) (selected : Bool), known = true → s.profile.hasAlgsel = true → exec .algsel t = .next u →
        u.ret = .bool selected → exec .handshake s = .next { u with connected := selected, ret := s.ret })

/-- 45_camera_protocol.md R197, R198, R199, R201, R202: a direct response whose payload covers the offsets, and a wrapped one
whose nested frame does, whatever the nested command, give the block; wrapped is tested first. -/
def Obligations.RequestBlocksReturnsTheBlock : Prop :=
  ∀ (s : State) (bs rest : List Byte) (f : Frame) (regs : Framer) (b : Block),
    s.env.camWrFault = none → Decodes s.profile s.frm bs (.ok f) regs → s.env.delivers bs rest →
    (f.command ≠ s.profile.cmdWrapped → f.command = s.profile.cmdDirect → covers f s.profile.offDirect = true →
      blockAt f.payload s.profile.offDirect = some b →
      exec .requestBlocks s = .next (afterReads bs rest (afterCamWrite s.profile.txReqblk { s with
        frm := regs, ccp := { ph := .reqRx, blk := b, blkValid := true }, ret := .block (some b) })))
    ∧ (∀ (bs2 rest2 : List Byte) (g : Frame) (regs2 : Framer), f.command = s.profile.cmdWrapped →
      Decodes s.profile regs bs2 (.ok g) regs2 → s.env.delivers (bs ++ bs2) rest2 →
      covers g s.profile.offWrapped = true → blockAt g.payload s.profile.offWrapped = some b →
      exec .requestBlocks s = .next (afterReads (bs ++ bs2) rest2 (afterCamWrite s.profile.txReqblk { s with
        frm := regs2, ccp := { ph := .nestRx, blk := b, blkValid := true }, ret := .block (some b) })))

/-- 45_camera_protocol.md R199, R200, R202, R206: every other response is flushed at once, whatever the flush ends in, and gives no
block; `CONNECTED`, `BLK` and `BLK_VALID` are not changed. -/
def Obligations.RequestBlocksFlushesTheRest : Prop :=
  ∀ (s : State) (bs rest : List Byte) (r : FrameResult) (regs : Framer)
    (cs : List (Vector Byte 4)) (last : Vector Byte 4) (rest' : List Byte) (fr : FlushResult),
    s.env.camWrFault = none → Flushes s.profile.flushMax (cs ++ [last]) fr →
    (Decodes s.profile s.frm bs r regs → s.env.delivers bs rest →
      (afterReads bs rest s).env.deliversChunks (cs ++ [last]) rest' →
      (∀ f, r = .ok f → f.command ≠ s.profile.cmdWrapped
        ∧ (f.command = s.profile.cmdDirect → covers f s.profile.offDirect = false)) →
      exec .requestBlocks s = .next (afterChunks (cs ++ [last]) rest' (afterReads bs rest
        (afterCamWrite s.profile.txReqblk { s with
          frm := regs, flu := { chunk := last, n := cs.length + 1 }, ccp := { s.ccp with ph := .flush }
          ret := .block none }))))
    ∧ (∀ (bs1 bs2 rest1 : List Byte) (f : Frame) (regs1 : Framer), f.command = s.profile.cmdWrapped →
      Decodes s.profile s.frm bs1 (.ok f) regs1 → s.env.delivers bs1 rest1 →
      Decodes s.profile regs1 bs2 r regs → s.env.delivers (bs1 ++ bs2) rest →
      (afterReads (bs1 ++ bs2) rest s).env.deliversChunks (cs ++ [last]) rest' →
      (∀ g, r = .ok g → covers g s.profile.offWrapped = false) →
      exec .requestBlocks s = .next (afterChunks (cs ++ [last]) rest' (afterReads (bs1 ++ bs2) rest
        (afterCamWrite s.profile.txReqblk { s with
          frm := regs, flu := { chunk := last, n := cs.length + 1 }, ccp := { s.ccp with ph := .flush }
          ret := .block none }))))

/-- 45_camera_protocol.md R201: eight payload bytes, copied and not swapped, in the order x, y, width, height. Outside the
payload the elements are unwritten and the operation stops by name (10_state.md R30, 93_implementation_defined.md U20). -/
def Obligations.ExtractCopiesTheFields : Prop :=
  ∀ (f : Frame) (off : Offsets) (s : State),
    (∀ x0 x1 y0 y1 w0 w1 h0 h1 : Byte,
      f.payload[off.x]? = some x0 → f.payload[off.x + 1]? = some x1 →
      f.payload[off.y]? = some y0 → f.payload[off.y + 1]? = some y1 →
      f.payload[off.w]? = some w0 → f.payload[off.w + 1]? = some w1 →
      f.payload[off.h]? = some h0 → f.payload[off.h + 1]? = some h1 →
      exec (.extract f off) s = .next { s with
        ccp := { s.ccp with blk := #v[x0, x1, y0, y1, w0, w1, h0, h1], blkValid := true }
        ret := .block (some #v[x0, x1, y0, y1, w0, w1, h0, h1]) })
    ∧ ((Instr.extract f off).wellFormed s.profile = true → ∃ b, exec (.extract f off) s = .next { s with
        ccp := { s.ccp with blk := b, blkValid := true }, ret := .block (some b) })
    ∧ ((f.payload.length ≤ off.x + 1 ∨ f.payload.length ≤ off.y + 1 ∨ f.payload.length ≤ off.w + 1
        ∨ f.payload.length ≤ off.h + 1) → exec (.extract f off) s = .fault .unwrittenRead)

/-- 45_camera_protocol.md R203, 30_encoding.md R93: the block with its local checksum, or zeros; no register is written. -/
def Obligations.BlockReportIsRecomputedLocally : Prop :=
  ∀ (b : Block) (s : State),
    exec (.blockReportBuild (some b)) s = .next { s with
      ret := .bytes (if s.profile.blockReportCk then b.toList ++ [checksum b.toList] else b.toList) }
    ∧ exec (.blockReportBuild none) s = .next { s with
      ret := .bytes (List.replicate (if s.profile.blockReportCk then 9 else 8) 0) }

/-- The rows of the responses (30_encoding.md R102, 45_camera_protocol.md R192 to R195, R198 to R204; log 17). To the handshake: the
ok code makes the next exchange due, or completes the handshake; any other command makes the camera absent, with a zero
report. To a block request: wrapped decodes a nested frame; direct takes the block from the frame `RES` holds (while it
holds no result, from the frame in the framer's registers: log 17); any other command flushes, and so does a block that
is not there. That the two default rows run so for every operand, an excluded one too, is the model's choice (log 42). -/
def Obligations.ResponseRows : Prop :=
  ∀ (s : State) (b : Block),
    (s.ccp.ph = .knockRx → s.profile.hasAlgsel = true →
      exec .respOk s = .next { s with ccp := { s.ccp with ph := .algTx }, ret := .bool true })
    ∧ (s.ccp.ph ≠ .knockRx ∨ s.profile.hasAlgsel = false →
      exec .respOk s = .next { s with ccp := { s.ccp with ph := .reqTx }, connected := true, ret := .bool true })
    ∧ (∀ cmd, exec (.respNotOk cmd) s = .next (afterAbsent s))
    ∧ (∀ (bs rest : List Byte) (g : Frame) (regs : Framer), Decodes s.profile s.frm bs (.ok g) regs →
      s.env.delivers bs rest → covers g s.profile.offWrapped = true → blockAt g.payload s.profile.offWrapped = some b →
      exec .respWrapped s = .next (afterReads bs rest { s with
        frm := regs, ccp := { ph := .nestRx, blk := b, blkValid := true }, ret := .block (some b) }))
    ∧ (∀ f, (s.frm.res = some (.ok f) ∨ (s.frm.res = none ∧ f = frameOf s)) → covers f s.profile.offDirect = true →
      blockAt f.payload s.profile.offDirect = some b →
      exec .respDirect s = .next { s with ccp := { s.ccp with blk := b, blkValid := true }, ret := .block (some b) })
    ∧ (∀ (cs : List (Vector Byte 4)) (last : Vector Byte 4) (rest : List Byte) (fr : FlushResult),
      Flushes s.profile.flushMax (cs ++ [last]) fr →
      (s.env.deliversChunks (cs ++ [last]) rest →
        ∀ i, (∃ cmd, i = Instr.respUnknown cmd)
          ∨ (i = .respDirect ∧ ((∃ f, (s.frm.res = some (.ok f) ∨ (s.frm.res = none ∧ f = frameOf s))
              ∧ covers f s.profile.offDirect = false) ∨ ∃ code, s.frm.res = some (.syncError code))) →
        exec i s = .next (afterChunks (cs ++ [last]) rest { s with
          flu := { chunk := last, n := cs.length + 1 }, ccp := { s.ccp with ph := .flush }, ret := .block none }))
      ∧ (∀ (bs more : List Byte) (r : FrameResult) (regs : Framer), Decodes s.profile s.frm bs r regs →
        s.env.delivers bs more → (∀ g, r = .ok g → covers g s.profile.offWrapped = false) →
        (afterReads bs more s).env.deliversChunks (cs ++ [last]) rest →
        exec .respWrapped s = .next (afterChunks (cs ++ [last]) rest (afterReads bs more { s with
          frm := regs, flu := { chunk := last, n := cs.length + 1 }, ccp := { s.ccp with ph := .flush }
          ret := .block none }))))

/-- 45_camera_protocol.md R204, R205, R207: in every state, and whatever the camera does, `CAMERA_DATA` returns a report of
the fixed length; it is all zero unless a block was extracted, and always when the camera is absent afterwards; a fault of
any of its transactions makes the camera absent; nothing
but the camera path's state changes; the number of camera transactions is bounded. `CAM_DATA` makes that report the
response (46_arbiter.md R228), with its length in `RESP_LEN` (log 43). -/
def Obligations.CameraDataAlwaysReports : Prop :=
  ∀ s : State, ∃ (t : State) (report : List Byte) (events : List Event),
    exec .cameraData s = .next t ∧ t.ret = .bytes report ∧ sameButCamera s t ∧ t.ccp.ph = .done
    ∧ report.length = (if s.profile.blockReportCk then 9 else 8)
    ∧ (report ≠ zeroReport s.profile → t.connected = true ∧ t.ccp.blkValid = true
        ∧ report = (if s.profile.blockReportCk then t.ccp.blk.toList ++ [checksum t.ccp.blk.toList] else t.ccp.blk.toList))
    ∧ (t.connected = false → report = zeroReport s.profile)
    ∧ t.trace = events ++ s.trace ∧ (∀ e ∈ events, e.isCamera = true)
    ∧ ((∃ k, .camFault k ∈ events) → t.connected = false)
    ∧ events.length ≤ 3 + 4 * 323 + s.profile.flushMax
    ∧ exec .camData s = .next { t with
        arb := { s.arb with resp := writeFrom s.arb.resp 0 report, respLen := report.length }, ret := s.ret }

/-- 45_camera_protocol.md R204: what is made of what. Connected, only the request is made, and its block is reported; a
request that faults returns none, and leaves the camera absent and the zero report (R204's catch; log 14 for the request by itself);
otherwise the handshake comes first, and the request follows in the same call exactly when it succeeded. -/
def Obligations.CameraDataStepByStep : Prop :=
  ∀ s t : State,
    (∀ b, s.connected = true → exec .requestBlocks { s with ccp := { s.ccp with blkValid := false } } = .next t →
      t.ret = .block b →
      exec .cameraData s = .next { t with
        ccp := { t.ccp with ph := .done }, ret := .bytes (blockReportBytes s.profile b) })
    ∧ (s.connected = true → exec .requestBlocks { s with ccp := { s.ccp with blkValid := false } } = .next t →
      (∀ b, t.ret ≠ .block b) →
      exec .cameraData s = .next t ∧ t.connected = false ∧ t.ret = .bytes (zeroReport s.profile))
    ∧ (s.connected = false → exec .handshake { s with ccp := { s.ccp with blkValid := false } } = .next t →
      (t.connected = false → exec .cameraData s = .next (afterAbsent t))
      ∧ (t.connected = true → exec .cameraData s = exec .cameraData t))

/-! ## Arbiter -/

/-- 46_arbiter.md R222, R224: the pin, then the mode; nothing else. When the call fails, neither is written; that the level
register then keeps its level is the model's choice (log 22). -/
def Obligations.DirectionIsSetWithTheMode : Prop :=
  ∀ s : State,
    (s.env.pinFails = false →
      exec .setRx s = .next { s with
        arb := { s.arb with mode := .receive }, pins := { s.pins with dir := !s.profile.dirTxLevel }
        env := { s.env with pin := s.env.pin.tail }, trace := .pin .dir (!s.profile.dirTxLevel) :: s.trace }
      ∧ exec .setTx s = .next { s with
        arb := { s.arb with mode := .transmit }, pins := { s.pins with dir := s.profile.dirTxLevel }
        env := { s.env with pin := s.env.pin.tail }, trace := .pin .dir s.profile.dirTxLevel :: s.trace })
    ∧ (s.env.pinFails = true → ∀ i ∈ [Instr.setRx, Instr.setTx],
      exec i s = exec (.fatalStop .gpio) { s with
        env := { s.env with pin := s.env.pin.tail }, trace := .fatal .gpio :: s.trace })

/-- 46_arbiter.md R225, R229, 30_encoding.md R91: dispatch on the whole byte; the three commands run their handlers; every
other byte has an empty response, one diagnostic event, and no other effect. That UNRECOGNIZED called by itself takes the tag
from its operand, any operand, whatever `CMD` holds, is the model's choice (log 42); that it writes `RESP_LEN` is log 43. -/
def Obligations.DispatchOnTheWholeByte : Prop :=
  ∀ s : State,
    (s.arb.cmd = 0x6C → exec .dispatch s = exec .sigLo s)
    ∧ (s.arb.cmd = 0x68 → exec .dispatch s = exec .sigHi s)
    ∧ (s.arb.cmd = 0x63 → exec .dispatch s = exec .camData s)
    ∧ (s.arb.cmd ≠ 0x6C → s.arb.cmd ≠ 0x68 → s.arb.cmd ≠ 0x63 →
      exec .dispatch s = .next { s with
        arb := { s.arb with respLen := 0 }, trace := .diag (.unrecognized s.arb.cmd) :: s.trace })
    ∧ ∀ cmd, exec (.unrecognized cmd) s = .next { s with
        arb := { s.arb with respLen := 0 }, trace := .diag (.unrecognized cmd) :: s.trace }

/-- 46_arbiter.md R230, R231: one write of the whole response, no call and no event when it is empty; then the settle
sleep; the mode stays. That a length that no dispatch writes (1, or 4 to 7) is written all the same is the model's choice
(log 41). -/
def Obligations.WriteRespAndTxSettle : Prop :=
  ∀ s : State,
    (s.arb.respLen = 0 → exec .writeResp s = .next s)
    ∧ (s.arb.respLen ≠ 0 → s.arb.mode = .transmit → s.env.upWrFails = false →
      exec .writeResp s = .next { s with
        env := { s.env with upWr := s.env.upWr.tail }
        trace := .upWrite (s.arb.resp.toList.take s.arb.respLen) :: s.trace })
    ∧ (s.arb.respLen ≠ 0 → s.arb.mode = .transmit → s.env.upWrFails = true →
      exec .writeResp s = exec (.fatalStop .uplink) { s with
        env := { s.env with upWr := s.env.upWr.tail }, trace := .fatal .uplink :: s.trace })
    ∧ (s.env.clkFails = false → exec .txSettle s = .next { s with
        env := { s.env with clk := s.env.clk.tail }, trace := .sleep s.profile.tTxSettle :: s.trace })
    ∧ (s.env.clkFails = true → exec .txSettle s = exec (.fatalStop .clock) { s with
        env := { s.env with clk := s.env.clk.tail }, trace := .fatal .clock :: s.trace })

/-- 46_arbiter.md R221, R229, R230, R234: one pass of the loop, from any state, whatever the camera does: RECEIVE, one
command byte, TRANSMIT, the handler's events, the response of the size the command and the profile fix, in one write,
or none for an unrecognized command, the settle, and the top of the loop again (one pass for the call: log 13). And whatever
fails: from any state that is not halted the pass is its six parts one after another, each in its phase and from the state the
one before it answered, up to the first that halts or waits (`runParts`; the wait is log 5). -/
def Obligations.CycleCompletes : Prop :=
  (∀ s : State, s.arb.halt = false → exec .arbLoop s = runParts loopParts s)
  ∧ ∀ (s : State) (b : Byte) (rest : List UpAnswer), s.env.cycleCalm → s.env.up = .byte b :: rest →
    ∃ (t : State) (handler : List Event) (resp : List Byte),
      exec .arbLoop s = .next t
      ∧ t.events = s.events ++ [.pin .dir (!s.profile.dirTxLevel), .upRead b, .pin .dir s.profile.dirTxLevel]
          ++ handler ++ (if resp = [] then [] else [.upWrite resp]) ++ [.sleep s.profile.tTxSettle]
      ∧ (∀ e ∈ handler, e.isUplink = false) ∧ resp.length = respSize s.profile b
      ∧ (uplinkCmd b = .unrecognized → handler = [.diag (.unrecognized b)])
      ∧ t.arb.ph = .setRx ∧ t.arb.mode = .transmit ∧ t.pins.dir = s.profile.dirTxLevel
      ∧ t.arb.cmd = b ∧ t.arb.respLen = resp.length ∧ respBytes t = resp
      ∧ t.arb.halt = s.arb.halt ∧ t.arb.haltCause = s.arb.haltCause ∧ t.env.up = rest
      ∧ t.profile = s.profile ∧ t.ret = s.ret ∧ t.call = s.call ∧ t.stopping = s.stopping
      ∧ (uplinkCmd b ≠ .camData → t.connected = s.connected ∧ t.frm = s.frm ∧ t.flu = s.flu ∧ t.ccp = s.ccp)
      ∧ (uplinkCmd b = .camData ∨ uplinkCmd b = .unrecognized →
          t.scn = s.scn ∧ t.pins.muxReset = s.pins.muxReset ∧ t.pins.muxAdv = s.pins.muxAdv ∧ t.fresh = s.fresh)

/-! ## The step -/

/-- A step runs what is called from outside: a word that the decoder reads as `i`, or an operation by its name (logs 1, 2);
`withFetchWord` makes that call of the table's word and changes nothing else (log 16). -/
def Obligations.StepRunsTheDecodedCall : Prop :=
  ∀ s : State, s.arb.halt = false → s.profile.wf = true →
    (∀ fmt bs i, decode s.profile fmt bs = .ok i →
      step { s with call := some (.word fmt bs) } = exec i { s with call := none })
    ∧ (∀ i, step { s with call := some (.op i) } = exec i { s with call := none })
    ∧ (∀ fmt bs why, decode s.profile fmt bs = .reject why →
      step { s with call := some (.word fmt bs) } = .refused (.undecodable why))
    ∧ (∀ nbits w, s.withFetchWord nbits w
        = { s with call := some (.word (tableWord nbits w).1 (tableWord nbits w).2) })

/-- 46_arbiter.md R221: in each phase of the arbiter the step does that phase's operation and moves on; where the
operation waits or stops, so does the step. The step of `A_SET_TX` enters the handler of the command (its flag, its first phase);
the steps from there end in the very state in which `DISPATCH`, in one piece, ends (10_state.md R23; log 1), in the next phase, which
is the settle when the response is empty (log 32), or in the same halt. Where it ends in a halt, the step ends in the same halt, or, when the bus is
in TRANSMIT, the step ends before the restoring `PinSet` of `FATAL_STOP`, and the next one is the rest of it (R232; 00_scope.md
R16; log 35). -/
def Obligations.StepFollowsTheLoop : Prop :=
  ∀ s u : State, Running s → s.arb.halt = false →
    (∀ c, s.stopping = some c → step s = exec (.fatalStop c) { s with stopping := none })
    ∧ (s.stopping = none → u.arb.halt = false →
      (s.arb.ph = .setRx → exec .setRx s = .next u → step s = .next { u with arb := { u.arb with ph := .waitCmd } })
      ∧ (s.arb.ph = .waitCmd → s.env.up ≠ [] → exec .waitCmd s = .next u →
        step s = .next { u with arb := { u.arb with ph := .setTx } })
      ∧ (s.arb.ph = .waitCmd → s.arb.mode = .receive → s.env.up = [] → step s = .next s)
      ∧ (s.arb.ph = .setTx → exec .setTx s = .next u →
        step s = .next { u with
          arb := { u.arb with ph := .dispatch }
          scn := match uplinkCmd u.arb.cmd with
            | .sigLo => { u.scn with ph := .reset, half := false, freq := false }
            | .sigHi => { u.scn with ph := .reset, half := false, freq := true }
            | .camData | .unrecognized => u.scn
          ccp := match uplinkCmd u.arb.cmd with
            | .camData => { u.ccp with ph := if u.connected then .reqTx else .knockTx, blkValid := false }
            | .sigLo | .sigHi | .unrecognized => u.ccp }
        ∧ ∀ v, exec .dispatch { u with arb := { u.arb with ph := .dispatch } } = .next v → ∃ n : Nat,
          Sys2Proof.core.run n s = .next
            (if v.arb.halt then v
             else { v with arb := { v.arb with ph := if v.arb.respLen = 0 then .settle else .write } }))
      ∧ (s.arb.ph = .dispatch → uplinkCmd s.arb.cmd = .unrecognized → exec (.unrecognized s.arb.cmd) s = .next u →
        step s = .next { u with arb := { u.arb with ph := .settle } })
      ∧ (s.arb.ph = .write → exec .writeResp s = .next u → step s = .next { u with arb := { u.arb with ph := .settle } })
      ∧ (s.arb.ph = .settle → exec .txSettle s = .next u → step s = .next { u with arb := { u.arb with ph := .setRx } }))
    ∧ (s.stopping = none → u.arb.halt = true →
      ∀ q ∈ [(ArbPh.setRx, Instr.setRx), (.waitCmd, .waitCmd), (.setTx, .setTx), (.write, .writeResp), (.settle, .txSettle)],
        s.arb.ph = q.1 → exec q.2 s = .next u →
        (s.arb.mode = .receive → step s = .next u)
        ∧ (s.arb.mode = .transmit → ∃ m c, step s = .next m ∧ m.stopping = some c ∧ m.arb = s.arb ∧ step m = .next u))

/-- 10_state.md R27, 46_arbiter.md R232 (a halted engine has no step: a fault, log 33), 00_scope.md R10 (a profile that
fails its checks is refused, not run). -/
def Obligations.HaltedOrRejected : Prop :=
  ∀ s : State,
    (s.arb.halt = true → step s = .fault .halted)
    ∧ (s.arb.halt = false → s.profile.wf = false → step s = .refused .profileRejected)
    ∧ (s.profile.wf = true ↔
        (∀ off ∈ [s.profile.offDirect, s.profile.offWrapped],
          off.x + 1 ≤ 254 ∧ off.y + 1 ≤ 254 ∧ off.w + 1 ≤ 254 ∧ off.h + 1 ≤ 254)
        ∧ s.profile.txKnock ≠ [] ∧ s.profile.txReqblk ≠ [] ∧ (s.profile.hasAlgsel = true → s.profile.txAlgsel ≠ [])
        ∧ 1 ≤ s.profile.flushMax ∧ (s.profile.signalScale = 127 ∨ s.profile.signalScale = 128)
        ∧ s.profile.cksumScope = .full)

/-- 10_state.md R50, 70_reset_and_hazards.md R281: what reset leaves, under every profile and environment; the registers
that R50 leaves unwritten are not spoken of. -/
def Obligations.ResetState : Prop :=
  ∀ (P : Profile) (env : Env),
    (let s := State.resetWith P env
     s.connected = false ∧ s.arb.halt = false ∧ s.arb.ph = .setRx ∧ s.frm.ph = .idle ∧ s.ccp.ph = .idle
     ∧ s.scn.ph = .idle ∧ s.profile = P ∧ s.env = env ∧ s.trace = [])

/-- The two invariants hold right after reset. -/
def Obligations.ResetMeetsTheInvariants : Prop :=
  ∀ (P : Profile) (env : Env), Inv (State.resetWith P env) ∧ TraceInv (State.resetWith P env)

/-- Every step keeps the invariant of the position (10_state.md R24, R25; 46_arbiter.md R220). What it says of `half`, of the
multiplexer's counter, of the empty response and of `stopping` is the model's (logs 15, 23, 32, 35). -/
def Obligations.InvIsKept : Prop :=
  ∀ s t : State, Running s → Inv s → step s = .next t → Inv t ∧ Running t

/-- A running engine that has not halted always has a step (00_scope.md R17), the wait for the HOST being one to the same
state (log 5): no fault and no refusal is reached. -/
def Obligations.EveryStepIsTaken : Prop :=
  ∀ s : State, Running s → Inv s → s.arb.halt = false → ∃ t, step s = .next t

/-- Every step keeps the four invariants of the trace (20_memory.md R70). -/
def Obligations.TraceInvIsKept : Prop :=
  ∀ s t : State, Running s → Inv s → TraceInv s → step s = .next t → TraceInv t

/-- 00_scope.md R16, 20_memory.md R70: a step is one primitive call and appends exactly one event, but for the wait for the
HOST, which is no step of the engine (log 5). The step that halts appends the event of the call that failed in RECEIVE, or
the event of the restoring `PinSet` of the `FATAL_STOP` under way (46_arbiter.md R232; log 35). -/
def Obligations.OneCallPerStep : Prop :=
  ∀ s t : State, Running s → Inv s → step s = .next t →
    (s.arb.ph = .waitCmd ∧ s.env.up = [] ∧ t = s)
    ∨ ∃ e, t.trace = e :: s.trace
      ∧ (∀ c, s.stopping = some c → t.stopping = none ∧ t.arb.halt = true ∧ t.arb.haltCause = c
        ∧ (e = .pin .dir (!s.profile.dirTxLevel) ∨ e = .fatal .gpio))
      ∧ (s.stopping = none → t.arb.halt = true → s.arb.mode = .receive ∧ e = .fatal t.arb.haltCause)
      ∧ (∀ c, s.stopping = none → t.stopping = some c → s.arb.mode = .transmit ∧ t.arb = s.arb ∧ e = .fatal c)

/-- 46_arbiter.md R220, 60_exceptions.md R263: the uplink is read only in RECEIVE and written only in TRANSMIT; the mode
changes only from RECEIVE to TRANSMIT, by `SET_TX`, and from TRANSMIT to RECEIVE, by `SET_RX` and the end of `FATAL_STOP`; in RECEIVE
nothing is called but `UpRead` and the direction pin (`SET_RX` itself apart, before which the mode of a fresh reset is
unwritten). That `FATAL_STOP` in TRANSMIT ends in a step of its own is log 35. -/
def Obligations.HalfDuplex : Prop :=
  ∀ s t : State, Running s → Inv s → step s = .next t →
    (∀ e, t.trace = e :: s.trace →
      ((∃ b, e = .upRead b) → s.arb.mode = .receive)
      ∧ ((∃ bs, e = .upWrite bs) → s.arb.mode = .transmit)
      ∧ (s.arb.ph ≠ .setRx → s.arb.mode = .receive →
        (∃ b, e = .upRead b) ∨ (∃ l, e = .pin .dir l) ∨ ∃ c, e = .fatal c))
    ∧ (t.arb.mode ≠ s.arb.mode →
      (s.arb.mode = .transmit ∧ t.arb.mode = .receive ∧ (s.arb.ph = .setRx ∨ (s.stopping ≠ none ∧ t.arb.halt = true)))
      ∨ (s.arb.mode = .receive ∧ t.arb.mode = .transmit ∧ s.arb.ph = .setTx))

/-- 45_camera_protocol.md R206, R22: `CONNECTED` becomes true only where a handshake's last response has come, and false only with a
zero report as the response to a camera command; no other step changes it, a fatal stop included. -/
def Obligations.WhatChangesConnected : Prop :=
  ∀ s t : State, Running s → Inv s → step s = .next t → t.connected ≠ s.connected →
    s.arb.ph = .dispatch ∧ uplinkCmd s.arb.cmd = .camData ∧ t.arb.halt = false
    ∧ (t.connected = true →
        (s.ccp.ph = .algRx ∨ (s.ccp.ph = .knockRx ∧ s.profile.hasAlgsel = false)) ∧ t.ccp.ph = .reqTx
        ∧ ∃ f, t.frm.res = some (.ok f) ∧ f.command = s.profile.cmdOk)
    ∧ (t.connected = false → t.arb.ph = .write ∧ respBytes t = zeroReport s.profile)

/-- The engine step by step does what the loop does in one piece: from the top of the loop, under every environment, some
number of steps ends in the very state that one pass of `ARB_LOOP` gives (10_state.md R23: the phase registers label the points of the
structured pseudocode, which is normative). A step is one call and the operation one piece (log 1); one call of `ARB_LOOP`
is one pass (log 13). -/
def Obligations.StepsRefineTheCycle : Prop :=
  ∀ s : State, Running s → s.arb.halt = false → s.stopping = none → s.arb.ph = .setRx →
    ∃ (n : Nat) (t : State), exec .arbLoop s = .next t ∧ Sys2Proof.core.run n s = .next t

/-! ## Encoding -/

/-- 30_encoding.md: the decoder reads back every well-formed instruction that has a word, under every profile. -/
def Obligations.DecodeOfEncode : Prop :=
  ∀ (P : Profile) (i : Instr) (fmt : Format) (bs : List Byte),
    i.wellFormed P = true → encode P i = some (fmt, bs) → decode P fmt bs = .ok i

/-- 30_encoding.md: a word that the decoder reads is the word of what it reads: no bit of it is dropped. -/
def Obligations.EncodeOfDecode : Prop :=
  ∀ (P : Profile) (fmt : Format) (bs : List Byte) (i : Instr),
    decode P fmt bs = .ok i → encode P i = some (fmt, bs)

/-- Words written out from the spec's encodings (30_encoding.md R91 to R102, the frames of 95_test_vectors.md). -/
def Obligations.DecodedWords : Prop :=
  decode Config.tp0 .u1 [0x6C] = .ok .sigLo ∧ decode Config.tp0 .u1 [0x4C] = .ok (.unrecognized 0x4C)
  ∧ decode Config.tp0 .sn [0xDE, 0xAD, 0x02] = .ok .sentinelH2
  ∧ decode Config.tp0 .fc [0xFF, 0xFF, 0xFF, 0x00] = .ok (.chunkData 0xFF 0xFF 0xFF 0x00)
  ∧ decode Config.tp0 .sr [0x01, 0xF2, 0xF3] = .ok (.signalReport 1 true 0x72 (some 0xF3))
  ∧ decode Config.tp0 .cf [0xC3, 0x3C, 0x20, 0x01, 0x00, 0x20] = .ok (.cameraFrame 0x20 (some 0x01) [] 0x20)

end
end

