-- ==== Sys2Proof/Laws/State.lean ====
section
/-! SUPPORT. One lemma per field per update of State. -/

namespace Sys2Proof.Machine.State

section
variable (s : State) (b : Bool)
@[simp] theorem setConnected_profile : (s.setConnected b).profile = s.profile := rfl
@[simp] theorem setConnected_connected : (s.setConnected b).connected = b := rfl
@[simp] theorem setConnected_arb : (s.setConnected b).arb = s.arb := rfl
@[simp] theorem setConnected_pins : (s.setConnected b).pins = s.pins := rfl
@[simp] theorem setConnected_frm : (s.setConnected b).frm = s.frm := rfl
@[simp] theorem setConnected_flu : (s.setConnected b).flu = s.flu := rfl
@[simp] theorem setConnected_ccp : (s.setConnected b).ccp = s.ccp := rfl
@[simp] theorem setConnected_scn : (s.setConnected b).scn = s.scn := rfl
@[simp] theorem setConnected_env : (s.setConnected b).env = s.env := rfl
@[simp] theorem setConnected_trace : (s.setConnected b).trace = s.trace := rfl
@[simp] theorem setConnected_fresh : (s.setConnected b).fresh = s.fresh := rfl
@[simp] theorem setConnected_ret : (s.setConnected b).ret = s.ret := rfl
@[simp] theorem setConnected_call : (s.setConnected b).call = s.call := rfl
@[simp] theorem setConnected_stopping : (s.setConnected b).stopping = s.stopping := rfl
@[simp] theorem setConnected_setConnected (b' : Bool) : (s.setConnected b).setConnected b' = s.setConnected b' := rfl
end

section
variable (s : State) (a : Arbiter)
@[simp] theorem setArb_profile : (s.setArb a).profile = s.profile := rfl
@[simp] theorem setArb_connected : (s.setArb a).connected = s.connected := rfl
@[simp] theorem setArb_arb : (s.setArb a).arb = a := rfl
@[simp] theorem setArb_pins : (s.setArb a).pins = s.pins := rfl
@[simp] theorem setArb_frm : (s.setArb a).frm = s.frm := rfl
@[simp] theorem setArb_flu : (s.setArb a).flu = s.flu := rfl
@[simp] theorem setArb_ccp : (s.setArb a).ccp = s.ccp := rfl
@[simp] theorem setArb_scn : (s.setArb a).scn = s.scn := rfl
@[simp] theorem setArb_env : (s.setArb a).env = s.env := rfl
@[simp] theorem setArb_trace : (s.setArb a).trace = s.trace := rfl
@[simp] theorem setArb_fresh : (s.setArb a).fresh = s.fresh := rfl
@[simp] theorem setArb_ret : (s.setArb a).ret = s.ret := rfl
@[simp] theorem setArb_call : (s.setArb a).call = s.call := rfl
@[simp] theorem setArb_stopping : (s.setArb a).stopping = s.stopping := rfl
@[simp] theorem setArb_setArb (a' : Arbiter) : (s.setArb a).setArb a' = s.setArb a' := rfl
end

section
variable (s : State) (p : Pins)
@[simp] theorem setPins_profile : (s.setPins p).profile = s.profile := rfl
@[simp] theorem setPins_connected : (s.setPins p).connected = s.connected := rfl
@[simp] theorem setPins_arb : (s.setPins p).arb = s.arb := rfl
@[simp] theorem setPins_pins : (s.setPins p).pins = p := rfl
@[simp] theorem setPins_frm : (s.setPins p).frm = s.frm := rfl
@[simp] theorem setPins_flu : (s.setPins p).flu = s.flu := rfl
@[simp] theorem setPins_ccp : (s.setPins p).ccp = s.ccp := rfl
@[simp] theorem setPins_scn : (s.setPins p).scn = s.scn := rfl
@[simp] theorem setPins_env : (s.setPins p).env = s.env := rfl
@[simp] theorem setPins_trace : (s.setPins p).trace = s.trace := rfl
@[simp] theorem setPins_fresh : (s.setPins p).fresh = s.fresh := rfl
@[simp] theorem setPins_ret : (s.setPins p).ret = s.ret := rfl
@[simp] theorem setPins_call : (s.setPins p).call = s.call := rfl
@[simp] theorem setPins_stopping : (s.setPins p).stopping = s.stopping := rfl
@[simp] theorem setPins_setPins (p' : Pins) : (s.setPins p).setPins p' = s.setPins p' := rfl
end

section
variable (s : State) (f : Framer)
@[simp] theorem setFrm_profile : (s.setFrm f).profile = s.profile := rfl
@[simp] theorem setFrm_connected : (s.setFrm f).connected = s.connected := rfl
@[simp] theorem setFrm_arb : (s.setFrm f).arb = s.arb := rfl
@[simp] theorem setFrm_pins : (s.setFrm f).pins = s.pins := rfl
@[simp] theorem setFrm_frm : (s.setFrm f).frm = f := rfl
@[simp] theorem setFrm_flu : (s.setFrm f).flu = s.flu := rfl
@[simp] theorem setFrm_ccp : (s.setFrm f).ccp = s.ccp := rfl
@[simp] theorem setFrm_scn : (s.setFrm f).scn = s.scn := rfl
@[simp] theorem setFrm_env : (s.setFrm f).env = s.env := rfl
@[simp] theorem setFrm_trace : (s.setFrm f).trace = s.trace := rfl
@[simp] theorem setFrm_fresh : (s.setFrm f).fresh = s.fresh := rfl
@[simp] theorem setFrm_ret : (s.setFrm f).ret = s.ret := rfl
@[simp] theorem setFrm_call : (s.setFrm f).call = s.call := rfl
@[simp] theorem setFrm_stopping : (s.setFrm f).stopping = s.stopping := rfl
@[simp] theorem setFrm_setFrm (f' : Framer) : (s.setFrm f).setFrm f' = s.setFrm f' := rfl
end

section
variable (s : State) (f : Flusher)
@[simp] theorem setFlu_profile : (s.setFlu f).profile = s.profile := rfl
@[simp] theorem setFlu_connected : (s.setFlu f).connected = s.connected := rfl
@[simp] theorem setFlu_arb : (s.setFlu f).arb = s.arb := rfl
@[simp] theorem setFlu_pins : (s.setFlu f).pins = s.pins := rfl
@[simp] theorem setFlu_frm : (s.setFlu f).frm = s.frm := rfl
@[simp] theorem setFlu_flu : (s.setFlu f).flu = f := rfl
@[simp] theorem setFlu_ccp : (s.setFlu f).ccp = s.ccp := rfl
@[simp] theorem setFlu_scn : (s.setFlu f).scn = s.scn := rfl
@[simp] theorem setFlu_env : (s.setFlu f).env = s.env := rfl
@[simp] theorem setFlu_trace : (s.setFlu f).trace = s.trace := rfl
@[simp] theorem setFlu_fresh : (s.setFlu f).fresh = s.fresh := rfl
@[simp] theorem setFlu_ret : (s.setFlu f).ret = s.ret := rfl
@[simp] theorem setFlu_call : (s.setFlu f).call = s.call := rfl
@[simp] theorem setFlu_stopping : (s.setFlu f).stopping = s.stopping := rfl
@[simp] theorem setFlu_setFlu (f' : Flusher) : (s.setFlu f).setFlu f' = s.setFlu f' := rfl
end

section
variable (s : State) (c : Camera)
@[simp] theorem setCcp_profile : (s.setCcp c).profile = s.profile := rfl
@[simp] theorem setCcp_connected : (s.setCcp c).connected = s.connected := rfl
@[simp] theorem setCcp_arb : (s.setCcp c).arb = s.arb := rfl
@[simp] theorem setCcp_pins : (s.setCcp c).pins = s.pins := rfl
@[simp] theorem setCcp_frm : (s.setCcp c).frm = s.frm := rfl
@[simp] theorem setCcp_flu : (s.setCcp c).flu = s.flu := rfl
@[simp] theorem setCcp_ccp : (s.setCcp c).ccp = c := rfl
@[simp] theorem setCcp_scn : (s.setCcp c).scn = s.scn := rfl
@[simp] theorem setCcp_env : (s.setCcp c).env = s.env := rfl
@[simp] theorem setCcp_trace : (s.setCcp c).trace = s.trace := rfl
@[simp] theorem setCcp_fresh : (s.setCcp c).fresh = s.fresh := rfl
@[simp] theorem setCcp_ret : (s.setCcp c).ret = s.ret := rfl
@[simp] theorem setCcp_call : (s.setCcp c).call = s.call := rfl
@[simp] theorem setCcp_stopping : (s.setCcp c).stopping = s.stopping := rfl
@[simp] theorem setCcp_setCcp (c' : Camera) : (s.setCcp c).setCcp c' = s.setCcp c' := rfl
end

section
variable (s : State) (c : Scanner)
@[simp] theorem setScn_profile : (s.setScn c).profile = s.profile := rfl
@[simp] theorem setScn_connected : (s.setScn c).connected = s.connected := rfl
@[simp] theorem setScn_arb : (s.setScn c).arb = s.arb := rfl
@[simp] theorem setScn_pins : (s.setScn c).pins = s.pins := rfl
@[simp] theorem setScn_frm : (s.setScn c).frm = s.frm := rfl
@[simp] theorem setScn_flu : (s.setScn c).flu = s.flu := rfl
@[simp] theorem setScn_ccp : (s.setScn c).ccp = s.ccp := rfl
@[simp] theorem setScn_scn : (s.setScn c).scn = c := rfl
@[simp] theorem setScn_env : (s.setScn c).env = s.env := rfl
@[simp] theorem setScn_trace : (s.setScn c).trace = s.trace := rfl
@[simp] theorem setScn_fresh : (s.setScn c).fresh = s.fresh := rfl
@[simp] theorem setScn_ret : (s.setScn c).ret = s.ret := rfl
@[simp] theorem setScn_call : (s.setScn c).call = s.call := rfl
@[simp] theorem setScn_stopping : (s.setScn c).stopping = s.stopping := rfl
@[simp] theorem setScn_setScn (c' : Scanner) : (s.setScn c).setScn c' = s.setScn c' := rfl
end

section
variable (s : State) (e : Env)
@[simp] theorem setEnv_profile : (s.setEnv e).profile = s.profile := rfl
@[simp] theorem setEnv_connected : (s.setEnv e).connected = s.connected := rfl
@[simp] theorem setEnv_arb : (s.setEnv e).arb = s.arb := rfl
@[simp] theorem setEnv_pins : (s.setEnv e).pins = s.pins := rfl
@[simp] theorem setEnv_frm : (s.setEnv e).frm = s.frm := rfl
@[simp] theorem setEnv_flu : (s.setEnv e).flu = s.flu := rfl
@[simp] theorem setEnv_ccp : (s.setEnv e).ccp = s.ccp := rfl
@[simp] theorem setEnv_scn : (s.setEnv e).scn = s.scn := rfl
@[simp] theorem setEnv_env : (s.setEnv e).env = e := rfl
@[simp] theorem setEnv_trace : (s.setEnv e).trace = s.trace := rfl
@[simp] theorem setEnv_fresh : (s.setEnv e).fresh = s.fresh := rfl
@[simp] theorem setEnv_ret : (s.setEnv e).ret = s.ret := rfl
@[simp] theorem setEnv_call : (s.setEnv e).call = s.call := rfl
@[simp] theorem setEnv_stopping : (s.setEnv e).stopping = s.stopping := rfl
@[simp] theorem setEnv_setEnv (e' : Env) : (s.setEnv e).setEnv e' = s.setEnv e' := rfl
end

section
variable (s : State) (n : Nat)
@[simp] theorem setFresh_profile : (s.setFresh n).profile = s.profile := rfl
@[simp] theorem setFresh_connected : (s.setFresh n).connected = s.connected := rfl
@[simp] theorem setFresh_arb : (s.setFresh n).arb = s.arb := rfl
@[simp] theorem setFresh_pins : (s.setFresh n).pins = s.pins := rfl
@[simp] theorem setFresh_frm : (s.setFresh n).frm = s.frm := rfl
@[simp] theorem setFresh_flu : (s.setFresh n).flu = s.flu := rfl
@[simp] theorem setFresh_ccp : (s.setFresh n).ccp = s.ccp := rfl
@[simp] theorem setFresh_scn : (s.setFresh n).scn = s.scn := rfl
@[simp] theorem setFresh_env : (s.setFresh n).env = s.env := rfl
@[simp] theorem setFresh_trace : (s.setFresh n).trace = s.trace := rfl
@[simp] theorem setFresh_fresh : (s.setFresh n).fresh = n := rfl
@[simp] theorem setFresh_ret : (s.setFresh n).ret = s.ret := rfl
@[simp] theorem setFresh_call : (s.setFresh n).call = s.call := rfl
@[simp] theorem setFresh_stopping : (s.setFresh n).stopping = s.stopping := rfl
@[simp] theorem setFresh_setFresh (n' : Nat) : (s.setFresh n).setFresh n' = s.setFresh n' := rfl
end

section
variable (s : State) (r : Ret)
@[simp] theorem setRet_profile : (s.setRet r).profile = s.profile := rfl
@[simp] theorem setRet_connected : (s.setRet r).connected = s.connected := rfl
@[simp] theorem setRet_arb : (s.setRet r).arb = s.arb := rfl
@[simp] theorem setRet_pins : (s.setRet r).pins = s.pins := rfl
@[simp] theorem setRet_frm : (s.setRet r).frm = s.frm := rfl
@[simp] theorem setRet_flu : (s.setRet r).flu = s.flu := rfl
@[simp] theorem setRet_ccp : (s.setRet r).ccp = s.ccp := rfl
@[simp] theorem setRet_scn : (s.setRet r).scn = s.scn := rfl
@[simp] theorem setRet_env : (s.setRet r).env = s.env := rfl
@[simp] theorem setRet_trace : (s.setRet r).trace = s.trace := rfl
@[simp] theorem setRet_fresh : (s.setRet r).fresh = s.fresh := rfl
@[simp] theorem setRet_ret : (s.setRet r).ret = r := rfl
@[simp] theorem setRet_call : (s.setRet r).call = s.call := rfl
@[simp] theorem setRet_stopping : (s.setRet r).stopping = s.stopping := rfl
@[simp] theorem setRet_setRet (r' : Ret) : (s.setRet r).setRet r' = s.setRet r' := rfl
end

section
variable (s : State) (c : Option Call)
@[simp] theorem setCall_profile : (s.setCall c).profile = s.profile := rfl
@[simp] theorem setCall_connected : (s.setCall c).connected = s.connected := rfl
@[simp] theorem setCall_arb : (s.setCall c).arb = s.arb := rfl
@[simp] theorem setCall_pins : (s.setCall c).pins = s.pins := rfl
@[simp] theorem setCall_frm : (s.setCall c).frm = s.frm := rfl
@[simp] theorem setCall_flu : (s.setCall c).flu = s.flu := rfl
@[simp] theorem setCall_ccp : (s.setCall c).ccp = s.ccp := rfl
@[simp] theorem setCall_scn : (s.setCall c).scn = s.scn := rfl
@[simp] theorem setCall_env : (s.setCall c).env = s.env := rfl
@[simp] theorem setCall_trace : (s.setCall c).trace = s.trace := rfl
@[simp] theorem setCall_fresh : (s.setCall c).fresh = s.fresh := rfl
@[simp] theorem setCall_ret : (s.setCall c).ret = s.ret := rfl
@[simp] theorem setCall_call : (s.setCall c).call = c := rfl
@[simp] theorem setCall_stopping : (s.setCall c).stopping = s.stopping := rfl
@[simp] theorem setCall_setCall (c' : Option Call) : (s.setCall c).setCall c' = s.setCall c' := rfl
end

section
variable (s : State) (c : Option FatalCause)
@[simp] theorem setStopping_profile : (s.setStopping c).profile = s.profile := rfl
@[simp] theorem setStopping_connected : (s.setStopping c).connected = s.connected := rfl
@[simp] theorem setStopping_arb : (s.setStopping c).arb = s.arb := rfl
@[simp] theorem setStopping_pins : (s.setStopping c).pins = s.pins := rfl
@[simp] theorem setStopping_frm : (s.setStopping c).frm = s.frm := rfl
@[simp] theorem setStopping_flu : (s.setStopping c).flu = s.flu := rfl
@[simp] theorem setStopping_ccp : (s.setStopping c).ccp = s.ccp := rfl
@[simp] theorem setStopping_scn : (s.setStopping c).scn = s.scn := rfl
@[simp] theorem setStopping_env : (s.setStopping c).env = s.env := rfl
@[simp] theorem setStopping_trace : (s.setStopping c).trace = s.trace := rfl
@[simp] theorem setStopping_fresh : (s.setStopping c).fresh = s.fresh := rfl
@[simp] theorem setStopping_ret : (s.setStopping c).ret = s.ret := rfl
@[simp] theorem setStopping_call : (s.setStopping c).call = s.call := rfl
@[simp] theorem setStopping_stopping : (s.setStopping c).stopping = c := rfl
@[simp] theorem setStopping_setStopping (c' : Option FatalCause) : (s.setStopping c).setStopping c' = s.setStopping c' := rfl
end

section
variable (s : State) (e : Event)
@[simp] theorem log_profile : (s.log e).profile = s.profile := rfl
@[simp] theorem log_connected : (s.log e).connected = s.connected := rfl
@[simp] theorem log_arb : (s.log e).arb = s.arb := rfl
@[simp] theorem log_pins : (s.log e).pins = s.pins := rfl
@[simp] theorem log_frm : (s.log e).frm = s.frm := rfl
@[simp] theorem log_flu : (s.log e).flu = s.flu := rfl
@[simp] theorem log_ccp : (s.log e).ccp = s.ccp := rfl
@[simp] theorem log_scn : (s.log e).scn = s.scn := rfl
@[simp] theorem log_env : (s.log e).env = s.env := rfl
@[simp] theorem log_trace : (s.log e).trace = e :: s.trace := rfl
@[simp] theorem log_fresh : (s.log e).fresh = s.fresh := rfl
@[simp] theorem log_ret : (s.log e).ret = s.ret := rfl
@[simp] theorem log_call : (s.log e).call = s.call := rfl
@[simp] theorem log_stopping : (s.log e).stopping = s.stopping := rfl
end

end Sys2Proof.Machine.State
end

