-- ==== Sys2Proof/Laws/Ops.lean ====
section
/-! SUPPORT. What the effects and the primitives can do, said once. -/

namespace Sys2Proof.Machine

/-! ## Effects -/

namespace Eff

variable {α β γ : Type}

@[simp] theorem andThen_ok (a : α) (s : State) (f : α → State → Eff β) : (Eff.ok a s).andThen f = f a s := rfl
@[simp] theorem andThen_camFault (k : CamFaultKind) (s : State) (f : α → State → Eff β) :
    (Eff.camFault k s).andThen f = .camFault k s := rfl
@[simp] theorem andThen_fatal (c : FatalCause) (s : State) (f : α → State → Eff β) :
    (Eff.fatal c s).andThen f = .fatal c s := rfl
@[simp] theorem andThen_blocked (s : State) (f : α → State → Eff β) : (Eff.blocked s).andThen f = .blocked s := rfl
@[simp] theorem andThen_stop (e : Fault) (f : α → State → Eff β) : (Eff.stop e).andThen f = .stop e := rfl

theorem andThen_assoc (m : Eff α) (f : α → State → Eff β) (g : β → State → Eff γ) :
    (m.andThen f).andThen g = m.andThen fun a s => (f a s).andThen g := by
  cases m <;> rfl

@[simp] theorem close_ok (a : Unit) (s : State) : (Eff.ok a s).close = .next s := rfl
@[simp] theorem close_camFault (k : CamFaultKind) (s : State) :
    (Eff.camFault k s : Eff Unit).close = .next ((takeAbsent s).setRet (.bytes (absentReport s))) := rfl
@[simp] theorem close_fatal (c : FatalCause) (s : State) : (Eff.fatal c s : Eff Unit).close = .next (takeFatal c s) := rfl
@[simp] theorem close_blocked (s : State) : (Eff.blocked s : Eff Unit).close = .next s := rfl
@[simp] theorem close_stop (e : Fault) : (Eff.stop e : Eff Unit).close = .fault e := rfl

@[simp] theorem answer_ok (a : α) (s : State) (f : α → Ret) : (Eff.ok a s).answer f = .next (s.setRet (f a)) := rfl
@[simp] theorem answer_camFault (k : CamFaultKind) (s : State) (f : α → Ret) :
    (Eff.camFault k s : Eff α).answer f = .next ((takeAbsent s).setRet (.bytes (absentReport s))) := rfl
@[simp] theorem answer_fatal (c : FatalCause) (s : State) (f : α → Ret) :
    (Eff.fatal c s : Eff α).answer f = .next (takeFatal c s) := rfl
@[simp] theorem answer_blocked (s : State) (f : α → Ret) : (Eff.blocked s : Eff α).answer f = .next s := rfl
@[simp] theorem answer_stop (e : Fault) (f : α → Ret) : (Eff.stop e : Eff α).answer f = .fault e := rfl

/-- Whatever state the effect ends in satisfies `p`. -/
def Ends (p : State → Prop) : Eff α → Prop
  | .ok _ s | .camFault _ s | .fatal _ s | .blocked s => p s
  | .stop _ => True

theorem Ends.mono {p q : State → Prop} {m : Eff α} (h : m.Ends p) (hpq : ∀ s, p s → q s) : m.Ends q := by
  cases m <;> first | exact hpq _ h | trivial

/-- The rule for sequences: what holds after the first part holds of every early ending too. -/
theorem Ends.andThen {p q : State → Prop} {m : Eff α} {f : α → State → Eff β} (hm : m.Ends p)
    (hpq : ∀ s, p s → q s) (hf : ∀ a s, p s → (f a s).Ends q) : (m.andThen f).Ends q := by
  cases m with
  | ok a s => exact hf a s hm
  | stop e => trivial
  | camFault k s => exact hpq s hm
  | fatal c s => exact hpq s hm
  | blocked s => exact hpq s hm

end Eff

/-! ## Primitives: the equation of each ending -/

variable {s : State}

theorem upRead_byte {b : Byte} {rest : List UpAnswer} (hm : s.arb.mode = .receive) (h : s.env.up = .byte b :: rest) :
    upRead s = .ok b ((s.setEnv { s.env with up := rest }).log (.upRead b)) := by
  simp [upRead, hm, h]

theorem upRead_silent (hm : s.arb.mode = .receive) (h : s.env.up = []) : upRead s = .blocked s := by
  simp [upRead, hm, h]

theorem upRead_fatal {rest : List UpAnswer} (hm : s.arb.mode = .receive) (h : s.env.up = .fatal :: rest) :
    upRead s = .fatal .uplink ((s.setEnv { s.env with up := rest }).log (.fatal .uplink)) := by
  simp [upRead, hm, h]

theorem upRead_transmit (hm : s.arb.mode = .transmit) : upRead s = .stop .readWhileTransmit := by
  simp [upRead, hm]

theorem upWrite_ok {bs : List Byte} (hm : s.arb.mode = .transmit) (h : s.env.upWrFails = false) :
    upWrite bs s = .ok () ((s.setEnv { s.env with upWr := s.env.upWr.tail }).log (.upWrite bs)) := by
  simp [upWrite, hm, h]

theorem upWrite_fatal {bs : List Byte} (hm : s.arb.mode = .transmit) (h : s.env.upWrFails = true) :
    upWrite bs s = .fatal .uplink ((s.setEnv { s.env with upWr := s.env.upWr.tail }).log (.fatal .uplink)) := by
  simp [upWrite, hm, h]

theorem upWrite_receive {bs : List Byte} (hm : s.arb.mode = .receive) : upWrite bs s = .stop .writeWhileReceive := by
  simp [upWrite, hm]

theorem camRead_ok {n : Nat} (h : s.env.camRdFault = none) :
    camRead n s = .ok (takeFilled n s.env.camBuf)
      ((s.setEnv { s.env with camRd := s.env.camRd.tail, camBuf := s.env.camBuf.drop n }).log
        (.camRead n (takeFilled n s.env.camBuf))) := by
  simp [camRead, h]

theorem camRead_fault {n : Nat} {f : CamReadFault} (h : s.env.camRdFault = some f) :
    camRead n s = .camFault f.kind
      ((s.setEnv { s.env with camRd := s.env.camRd.tail, camBuf := s.env.camBuf.drop f.lost }).log
        (.camFault f.kind)) := by
  simp [camRead, h]

theorem camWrite_ok {bs : List Byte} (h : s.env.camWrFault = none) :
    camWrite bs s = .ok () ((s.setEnv { s.env with camWr := s.env.camWr.tail }).log (.camWrite bs)) := by
  simp [camWrite, h]

theorem camWrite_fault {bs : List Byte} {f : CamWriteFault} (h : s.env.camWrFault = some f) :
    camWrite bs s = .camFault f.kind ((s.setEnv { s.env with camWr := s.env.camWr.tail }).log (.camFault f.kind)) := by
  simp [camWrite, h]

theorem pinSet_ok {pin : Pin} {l : Bool} (h : s.env.pinFails = false) :
    pinSet pin l s = .ok () (((s.setEnv { s.env with pin := s.env.pin.tail }).setPins (s.pins.drive pin l)).log (.pin pin l)) := by
  simp [pinSet, h]

theorem pinSet_fatal {pin : Pin} {l : Bool} (h : s.env.pinFails = true) :
    pinSet pin l s = .fatal .gpio ((s.setEnv { s.env with pin := s.env.pin.tail }).log (.fatal .gpio)) := by
  simp [pinSet, h]

theorem sleep_ok {d : Nat} (h : s.env.clkFails = false) :
    sleep d s = .ok () ((s.setEnv { s.env with clk := s.env.clk.tail }).log (.sleep d)) := by
  simp [sleep, h]

theorem sleep_fatal {d : Nat} (h : s.env.clkFails = true) :
    sleep d s = .fatal .clock ((s.setEnv { s.env with clk := s.env.clk.tail }).log (.fatal .clock)) := by
  simp [sleep, h]

theorem analogRead_sample {v : Sample} {rest : List AdcAnswer} (h : s.env.adc = .sample v :: rest) :
    analogRead s = .ok v ((s.setEnv { s.env with adc := rest }).log (.analog v)) := by
  simp [analogRead, h]

theorem analogRead_free (h : s.env.adc = []) :
    analogRead s = .ok (Config.freeSample s.fresh) ((s.setFresh (s.fresh + 1)).log (.analog (Config.freeSample s.fresh))) := by
  simp [analogRead, h]

theorem analogRead_fatal {rest : List AdcAnswer} (h : s.env.adc = .fatal :: rest) :
    analogRead s = .fatal .analog ((s.setEnv { s.env with adc := rest }).log (.fatal .analog)) := by
  simp [analogRead, h]

/-! ## Primitives: the endings there are -/

/-- `UpRead` outside TRANSMIT: a byte, a wait, or `Fatal(Uplink)`. -/
theorem upRead_cases (hm : s.arb.mode = .receive) :
    (∃ b rest, s.env.up = .byte b :: rest ∧ upRead s = .ok b ((s.setEnv { s.env with up := rest }).log (.upRead b)))
    ∨ (s.env.up = [] ∧ upRead s = .blocked s)
    ∨ ∃ rest, s.env.up = .fatal :: rest
        ∧ upRead s = .fatal .uplink ((s.setEnv { s.env with up := rest }).log (.fatal .uplink)) := by
  rcases h : s.env.up with _ | ⟨_ | _, rest⟩
  · exact .inr (.inl ⟨rfl, upRead_silent hm h⟩)
  · exact .inl ⟨_, rest, rfl, upRead_byte hm h⟩
  · exact .inr (.inr ⟨rest, rfl, upRead_fatal hm h⟩)

/-- `CamRead`: the bytes, or a fault. -/
theorem camRead_cases (n : Nat) (s : State) :
    camRead n s = .ok (takeFilled n s.env.camBuf)
      ((s.setEnv { s.env with camRd := s.env.camRd.tail, camBuf := s.env.camBuf.drop n }).log
        (.camRead n (takeFilled n s.env.camBuf)))
    ∨ ∃ f : CamReadFault, camRead n s = .camFault f.kind
        ((s.setEnv { s.env with camRd := s.env.camRd.tail, camBuf := s.env.camBuf.drop f.lost }).log
          (.camFault f.kind)) := by
  rcases h : s.env.camRdFault with _ | f
  · exact .inl (camRead_ok h)
  · exact .inr ⟨f, camRead_fault h⟩

theorem camWrite_cases (bs : List Byte) (s : State) :
    camWrite bs s = .ok () ((s.setEnv { s.env with camWr := s.env.camWr.tail }).log (.camWrite bs))
    ∨ ∃ k, camWrite bs s = .camFault k ((s.setEnv { s.env with camWr := s.env.camWr.tail }).log (.camFault k)) := by
  rcases h : s.env.camWrFault with _ | f
  · exact .inl (camWrite_ok h)
  · exact .inr ⟨f.kind, camWrite_fault h⟩

theorem pinSet_cases (pin : Pin) (l : Bool) (s : State) :
    pinSet pin l s = .ok () (((s.setEnv { s.env with pin := s.env.pin.tail }).setPins (s.pins.drive pin l)).log (.pin pin l))
    ∨ pinSet pin l s = .fatal .gpio ((s.setEnv { s.env with pin := s.env.pin.tail }).log (.fatal .gpio)) := by
  rcases h : s.env.pinFails
  · exact .inl (pinSet_ok h)
  · exact .inr (pinSet_fatal h)

theorem sleep_cases (d : Nat) (s : State) :
    sleep d s = .ok () ((s.setEnv { s.env with clk := s.env.clk.tail }).log (.sleep d))
    ∨ sleep d s = .fatal .clock ((s.setEnv { s.env with clk := s.env.clk.tail }).log (.fatal .clock)) := by
  rcases h : s.env.clkFails
  · exact .inl (sleep_ok h)
  · exact .inr (sleep_fatal h)

/-- `AnalogRead`: a sample, with an environment and a counter that may have moved, or `Fatal(Analog)`. -/
theorem analogRead_cases (s : State) :
    (∃ v adc n, analogRead s = .ok v (((s.setEnv { s.env with adc := adc }).setFresh n).log (.analog v)))
    ∨ ∃ adc, analogRead s = .fatal .analog ((s.setEnv { s.env with adc := adc }).log (.fatal .analog)) := by
  rcases h : s.env.adc with _ | ⟨v | _, rest⟩
  · exact .inl ⟨_, s.env.adc, _, analogRead_free h⟩
  · exact .inl ⟨v, rest, s.fresh, analogRead_sample h⟩
  · exact .inr ⟨rest, analogRead_fatal h⟩

/-! ## Bytes of the camera channel -/

/-- A read takes exactly as many bytes as it asks for (20_memory.md R64). -/
@[simp] theorem takeFilled_length (n : Nat) (buf : List Byte) : (takeFilled n buf).length = n := by
  simp [takeFilled]

@[simp] theorem takeFilled_one_cons (b : Byte) (buf : List Byte) : takeFilled 1 (b :: buf) = [b] := rfl

/-- An exhausted device answers 0xFF (20_memory.md R85). -/
@[simp] theorem takeFilled_nil (n : Nat) : takeFilled n [] = List.replicate n Config.flushEmpty := by
  simp [takeFilled]

theorem takeFilled_append {n : Nat} {c rest : List Byte} (h : c.length = n) : takeFilled n (c ++ rest) = c := by
  simp [takeFilled, ← h]

/-- `next()` while the device has a byte ready. -/
theorem nextByte_cons {b : Byte} {rest : List Byte} (hf : s.env.camRdFault = none) (hb : s.env.camBuf = b :: rest) :
    nextByte s = .ok b ((s.setEnv { s.env with camRd := s.env.camRd.tail, camBuf := rest }).log (.camRead 1 [b])) := by
  simp [nextByte, camRead_ok hf, hb]

/-- `next()`: a byte, or a fault. -/
theorem nextByte_cases (s : State) :
    (∃ b, nextByte s = .ok b ((s.setEnv { s.env with camRd := s.env.camRd.tail, camBuf := s.env.camBuf.drop 1 }).log
        (.camRead 1 [b])))
    ∨ ∃ f : CamReadFault, nextByte s = .camFault f.kind
        ((s.setEnv { s.env with camRd := s.env.camRd.tail, camBuf := s.env.camBuf.drop f.lost }).log
          (.camFault f.kind)) := by
  rcases camRead_cases 1 s with h | ⟨k, h⟩
  · refine .inl ⟨(takeFilled 1 s.env.camBuf).headD Config.flushEmpty, ?_⟩
    have hl : takeFilled 1 s.env.camBuf = [(takeFilled 1 s.env.camBuf).headD Config.flushEmpty] := by
      cases s.env.camBuf <;> rfl
    simp only [nextByte, h, Eff.andThen_ok]
    rw [← hl]
  · exact .inr ⟨k, by simp [nextByte, h]⟩

end Sys2Proof.Machine
end

