-- ==== Sys2Proof/Laws/Operands.lean ====
section
/-! SUPPORT. What the operand forms and the conditions are, said once: the checksum, the report bytes, sequences in register
arrays, the fields of a block, the chunk test, the uplink command. -/

namespace Sys2Proof

/-! ## Checksum -/

theorem checksum_nil : checksum [] = 0 := rfl

theorem foldl_add_start (bs : List Byte) (a : Byte) :
    bs.foldl (fun acc b => acc + b) a = a + bs.foldl (fun acc b => acc + b) 0 := by
  induction bs generalizing a with
  | nil => simp
  | cons b bs ih => rw [List.foldl_cons, List.foldl_cons, ih, ih (0 + b), zero_add, add_assoc]

/-- The running sum: one byte more is one addition more (40_checksum.md R123). -/
theorem checksum_cons (b : Byte) (bs : List Byte) : checksum (b :: bs) = b + checksum bs := by
  rw [checksum, List.foldl_cons, foldl_add_start, zero_add, checksum]

/-! ## The uplink command -/

theorem uplinkCmd_sigLo_iff (b : Byte) : uplinkCmd b = .sigLo ↔ b = Config.cmdSigLo := by
  unfold uplinkCmd
  by_cases h1 : b = Config.cmdSigLo
  · simp [h1]
  · simp only [h1, if_false]; split <;> simp; split <;> simp

theorem uplinkCmd_sigHi_iff (b : Byte) : uplinkCmd b = .sigHi ↔ b = Config.cmdSigHi := by
  unfold uplinkCmd
  by_cases h1 : b = Config.cmdSigLo
  · subst h1; decide
  · by_cases h2 : b = Config.cmdSigHi
    · simp [h2]; decide
    · simp only [h1, h2, if_false]; split <;> simp

theorem uplinkCmd_camData_iff (b : Byte) : uplinkCmd b = .camData ↔ b = Config.cmdCam := by
  unfold uplinkCmd
  by_cases h1 : b = Config.cmdSigLo
  · subst h1; decide
  · by_cases h2 : b = Config.cmdSigHi
    · subst h2; decide
    · simp only [h1, h2, if_false]; split <;> simp_all

/-! ## Report bytes -/

theorem packByte1_toNat (mag : BitVec 7) (freq : Bool) :
    (packByte1 mag freq).toNat = mag.toNat + (if freq then 128 else 0) := by
  cases freq <;> revert mag <;> decide

end Sys2Proof

namespace Sys2Proof.Machine

/-! ## Sequences in register arrays -/

@[simp] theorem writeFrom_nil {n : Nat} (v : Vector Byte n) (i : Nat) : writeFrom v i [] = v := rfl

theorem writeFrom_cons {n : Nat} (v : Vector Byte n) (i : Nat) (b : Byte) (bs : List Byte) :
    writeFrom v i (b :: bs) = writeFrom (v.setIfInBounds i b) (i + 1) bs := rfl

/-- Below the first index nothing is written. -/
theorem writeFrom_below {n : Nat} (bs : List Byte) (v : Vector Byte n) (i j : Nat) (h : j < n) (hj : j < i) :
    (writeFrom v i bs)[j] = v[j] := by
  induction bs generalizing v i with
  | nil => rfl
  | cons b bs ih =>
    rw [writeFrom_cons, ih _ (i + 1) (by omega), Vector.getElem_setIfInBounds]
    simp [show i ≠ j by omega]

/-- From the first index on, the sequence, as far as it reaches. -/
theorem writeFrom_from {n : Nat} (bs : List Byte) (v : Vector Byte n) (i j : Nat) (h : j < n) (hj : i ≤ j) :
    (writeFrom v i bs)[j] = bs[j - i]?.getD v[j] := by
  induction bs generalizing v i with
  | nil => simp
  | cons b bs ih =>
    rw [writeFrom_cons]
    rcases Nat.eq_or_lt_of_le hj with rfl | hlt
    · rw [writeFrom_below _ _ _ _ h (by omega), Vector.getElem_setIfInBounds]; simp
    · rw [ih _ (i + 1) (by omega), Vector.getElem_setIfInBounds]
      rw [show j - i = (j - (i + 1)) + 1 by omega]
      simp [show i ≠ j by omega]

/-- A whole array written from its start holds the sequence. -/
theorem writeFrom_full {n : Nat} (v c : Vector Byte n) : writeFrom v 0 c.toList = c := by
  ext j h
  rw [writeFrom_from _ _ _ _ h (by omega)]
  simp [h]

@[simp] theorem firstBytes_length {n : Nat} (v : Vector Byte n) (k : Nat) : (firstBytes v k).length = min k n := by
  simp [firstBytes]

/-- A sequence that fits is read back. -/
theorem firstBytes_writeFrom {n : Nat} (v : Vector Byte n) (bs : List Byte) (h : bs.length ≤ n) :
    firstBytes (writeFrom v 0 bs) bs.length = bs := by
  apply List.ext_getElem
  · simp; omega
  · intro j h1 h2
    simp only [firstBytes, List.getElem_take, Vector.getElem_toList]
    rw [writeFrom_from _ _ _ _ (by omega) (by omega)]
    simp [h2]

/-! ## Blocks and chunks -/

/-- Where the offsets are covered, the block is there (45_camera_protocol.md R202). -/
theorem blockAt_isSome (payload : List Byte) (off : Offsets) (h : off.coveredBy payload.length = true) :
    ∃ b, blockAt payload off = some b := by
  simp only [Offsets.coveredBy, Bool.and_eq_true, decide_eq_true_eq] at h
  obtain ⟨⟨⟨hx, hy⟩, hw⟩, hh⟩ := h
  have get : ∀ i, i < payload.length → ∃ b, payload[i]? = some b := fun i hi => ⟨_, List.getElem?_eq_getElem hi⟩
  obtain ⟨_, e0⟩ := get off.x (by omega)
  obtain ⟨_, e1⟩ := get (off.x + 1) hx
  obtain ⟨_, e2⟩ := get off.y (by omega)
  obtain ⟨_, e3⟩ := get (off.y + 1) hy
  obtain ⟨_, e4⟩ := get off.w (by omega)
  obtain ⟨_, e5⟩ := get (off.w + 1) hw
  obtain ⟨_, e6⟩ := get off.h (by omega)
  obtain ⟨_, e7⟩ := get (off.h + 1) hh
  exact ⟨#v[_, _, _, _, _, _, _, _], by simp only [blockAt, e0, e1, e2, e3, e4, e5, e6, e7]; rfl⟩

/-- The length of a block report depends on the profile only (45_camera_protocol.md R203, 46_arbiter.md R230). -/
@[simp] theorem blockReportBytes_length (P : Profile) (b : Option Block) :
    (blockReportBytes P b).length = if P.blockReportCk then 9 else 8 := by
  cases b <;> simp [blockReportBytes, withChecksum]
  split <;> simp

@[simp] theorem signalReportBytes_length (P : Profile) (i : Fin 8) (m : BitVec 7) (f : Bool) :
    (signalReportBytes P i m f).length = if P.signalReportCk then 3 else 2 := by
  simp only [signalReportBytes, withChecksum, packReport]
  split <;> rfl

theorem chunkIsEmpty_iff (v : Vector Byte 4) : chunkIsEmpty v.toList = true ↔ v = #v[0xFF, 0xFF, 0xFF, 0xFF] := by
  constructor
  · intro h
    have hall : ∀ (j : Nat) (hj : j < 4), v[j] = 0xFF := fun j hj =>
      of_decide_eq_true (List.all_eq_true.1 h _ (Vector.mem_toList_iff.2 (Vector.getElem_mem hj)))
    ext j hj
    rw [hall j hj]
    match j, hj with
    | 0, _ | 1, _ | 2, _ | 3, _ => rfl
  · rintro rfl; decide

/-- A payload read from the registers has the announced length. -/
theorem firstBytes_payload_length (v : Vector Byte 255) (len : Byte) : (firstBytes v len.toNat).length = len.toNat := by
  have := len.isLt
  simp; omega

end Sys2Proof.Machine
end

