-- ==== Sys2Proof/Laws/Camera.lean ====
section
/-! SUPPORT. What the operations of the camera path can end in and what they leave alone: a value or a `CamFault`, never a
`Fatal`, a wait or a stop (60_exceptions.md R255, R261), with only their own group and the camera's channel changed. -/

namespace Sys2Proof.Machine

/-! ## Endings of the camera path -/

/-- A value or a `CamFault`, in a state that satisfies `p`. -/
def Eff.InCamera {α : Type} (p : State → Prop) : Eff α → Prop
  | .ok _ s | .camFault _ s => p s
  | .fatal _ _ | .blocked _ | .stop _ => False

namespace Eff

variable {α β : Type} {p q : State → Prop}

theorem InCamera.mono {m : Eff α} (h : m.InCamera p) (hpq : ∀ s, p s → q s) : m.InCamera q := by
  cases m <;> first | exact hpq _ h | exact h

theorem InCamera.andThen {m : Eff α} {f : α → State → Eff β} (hm : m.InCamera p) (hpq : ∀ s, p s → q s)
    (hf : ∀ a s, p s → (f a s).InCamera q) : (m.andThen f).InCamera q := by
  cases m with
  | ok a s => exact hf a s hm
  | camFault k s => exact hpq s hm
  | fatal | blocked | stop => exact hm

theorem InCamera.ends {m : Eff α} (h : m.InCamera p) : m.Ends p := by
  cases m <;> first | exact h | exact h.elim

end Eff

/-- `t` differs from `s` only in the channel's buffer and answers, and the trace. -/
def channelOnly (s t : State) : Prop :=
  t = { s with env := { s.env with camBuf := t.env.camBuf, camRd := t.env.camRd, camWr := t.env.camWr }, trace := t.trace }

/-- `t` differs from `s` only in the framer's registers and the channel. -/
def framerOnly (s t : State) : Prop := channelOnly (s.setFrm t.frm) t

/-- `t` differs from `s` only in the flusher's registers and the channel. -/
def flusherOnly (s t : State) : Prop := channelOnly (s.setFlu t.flu) t

theorem framerOnly_iff (s t : State) : framerOnly s t ↔
    t.profile = s.profile ∧ t.connected = s.connected ∧ t.arb = s.arb ∧ t.pins = s.pins ∧ t.flu = s.flu ∧ t.ccp = s.ccp
      ∧ t.scn = s.scn ∧ t.env.up = s.env.up ∧ t.env.upWr = s.env.upWr ∧ t.env.adc = s.env.adc ∧ t.env.pin = s.env.pin
      ∧ t.env.clk = s.env.clk ∧ t.env.muxPulses = s.env.muxPulses ∧ t.fresh = s.fresh ∧ t.ret = s.ret ∧ t.call = s.call
      ∧ t.stopping = s.stopping := by
  obtain ⟨_, _, _, _, _, _, _, _, ⟨_, _, _, _, _, _, _, _, _⟩, _, _, _, _⟩ := s
  obtain ⟨_, _, _, _, _, _, _, _, ⟨_, _, _, _, _, _, _, _, _⟩, _, _, _, _⟩ := t
  simp [framerOnly, channelOnly, State.setFrm, and_assoc]

theorem flusherOnly_iff (s t : State) : flusherOnly s t ↔
    t.profile = s.profile ∧ t.connected = s.connected ∧ t.arb = s.arb ∧ t.pins = s.pins ∧ t.frm = s.frm ∧ t.ccp = s.ccp
      ∧ t.scn = s.scn ∧ t.env.up = s.env.up ∧ t.env.upWr = s.env.upWr ∧ t.env.adc = s.env.adc ∧ t.env.pin = s.env.pin
      ∧ t.env.clk = s.env.clk ∧ t.env.muxPulses = s.env.muxPulses ∧ t.fresh = s.fresh ∧ t.ret = s.ret ∧ t.call = s.call
      ∧ t.stopping = s.stopping := by
  obtain ⟨_, _, _, _, _, _, _, _, ⟨_, _, _, _, _, _, _, _, _⟩, _, _, _, _⟩ := s
  obtain ⟨_, _, _, _, _, _, _, _, ⟨_, _, _, _, _, _, _, _, _⟩, _, _, _, _⟩ := t
  simp [flusherOnly, channelOnly, State.setFlu, and_assoc]

theorem framerOnly.trans {s t u : State} (h1 : framerOnly s t) (h2 : framerOnly t u) : framerOnly s u := by
  rw [framerOnly_iff] at *; simp_all

theorem flusherOnly.trans {s t u : State} (h1 : flusherOnly s t) (h2 : flusherOnly t u) : flusherOnly s u := by
  rw [flusherOnly_iff] at *; simp_all

theorem framerOnly.refl (s : State) : framerOnly s s := rfl

theorem framerOnly_setFrm (s : State) (f : Framer) : framerOnly s (s.setFrm f) := rfl

/-! ## The framer -/

theorem nextByte_inCamera (s : State) : (nextByte s).InCamera (framerOnly s) := by
  rcases nextByte_cases s with ⟨b, h⟩ | ⟨f, h⟩ <;> rw [h] <;> rfl

/-- One byte read and one update of the framer's registers. -/
theorem readThen_inCamera (s : State) (f : Byte → State → State) (hf : ∀ b t, framerOnly t (f b t)) :
    ((nextByte s).andThen fun b s => .ok () (f b s)).InCamera (framerOnly s) :=
  (nextByte_inCamera s).andThen (fun _ h => h) fun b t h => h.trans (hf b t)

theorem takeH1_framerOnly (b : Byte) (s : State) : framerOnly s (takeH1 b s) := by
  unfold takeH1; split
  · rfl
  · split <;> rfl

theorem takeH2_framerOnly (b : Byte) (s : State) : framerOnly s (takeH2 b s) := by
  unfold takeH2; split
  · rfl
  · split <;> rfl

theorem searchH1Loop_inCamera (n : Nat) (s : State) : (searchH1Loop n s).InCamera (framerOnly s) := by
  induction n generalizing s with
  | zero => exact framerOnly.refl s
  | succ n ih =>
    refine (readThen_inCamera s _ takeH1_framerOnly).andThen (fun _ h => h) fun _ t h => ?_
    split
    · exact (ih t).mono fun _ h' => h.trans h'
    · exact h

theorem searchH2Loop_inCamera (n : Nat) (s : State) : (searchH2Loop n s).InCamera (framerOnly s) := by
  induction n generalizing s with
  | zero => exact framerOnly.refl s
  | succ n ih =>
    refine (readThen_inCamera s _ takeH2_framerOnly).andThen (fun _ h => h) fun _ t h => ?_
    split
    · exact (ih t).mono fun _ h' => h.trans h'
    · exact h

theorem payloadLoop_inCamera (n : Nat) (s : State) : (payloadLoop n s).InCamera (framerOnly s) := by
  induction n generalizing s with
  | zero => exact framerOnly.refl s
  | succ n ih =>
    unfold payloadLoop
    split
    · exact (readThen_inCamera s takePayload fun _ _ => rfl).andThen (fun _ h => h) fun _ t h => (ih t).mono fun _ h' => h.trans h'
    · exact framerOnly.refl s

theorem searchH1_inCamera (s : State) : (searchH1 s).InCamera (framerOnly s) :=
  (searchH1Loop_inCamera _ _).mono fun _ h => (framerOnly_setFrm s _).trans h

theorem searchH2_inCamera (s : State) : (searchH2 s).InCamera (framerOnly s) :=
  (searchH2Loop_inCamera _ _).mono fun _ h => (framerOnly_setFrm s _).trans h

theorem readAlgo_inCamera (s : State) : (readAlgo s).InCamera (framerOnly s) := by
  unfold readAlgo; split
  · exact readThen_inCamera s _ fun _ _ => rfl
  · rfl

theorem readPayload_inCamera (s : State) : (readPayload s).InCamera (framerOnly s) :=
  (payloadLoop_inCamera _ _).andThen (fun _ h => h) fun _ t h => h.trans (framerOnly_setFrm t _)

theorem readFrame_inCamera (s : State) : (readFrame s).InCamera (framerOnly s) := by
  refine (readThen_inCamera s takeCmd fun _ _ => rfl).andThen (fun _ h => h) fun _ t h => ?_
  refine Eff.InCamera.andThen (p := framerOnly s) ?_ (fun _ h => h) fun _ t h => ?_
  · split
    · exact (readAlgo_inCamera t).mono fun _ h' => h.trans h'
    · exact h
  refine ((readThen_inCamera t takeLen fun _ _ => rfl).mono fun _ h' => h.trans h').andThen (fun _ h => h) fun _ t h => ?_
  refine ((readPayload_inCamera t).mono fun _ h' => h.trans h').andThen (fun _ h => h) fun _ t h => ?_
  exact ((readThen_inCamera t (fun b s => ckValidate (s.setFrm { s.frm with ckrx := b })) fun _ _ => rfl).mono fun _ h' => h.trans h').andThen (fun _ h => h) fun _ _ h =>
    h.trans (framerOnly_setFrm _ _)

/-- A decode ends with a result or a `CamFault`, and only the framer's registers and the channel have changed
(43_framer.md R150, R167). -/
theorem frameDecode_inCamera (s : State) : (frameDecode s).InCamera (framerOnly s) := by
  refine (searchH1_inCamera s).andThen (fun _ h => h) fun _ t h => ?_
  split
  · exact h.trans (framerOnly_setFrm t _)
  · refine ((searchH2_inCamera t).mono fun _ h' => h.trans h').andThen (fun _ h => h) fun _ t h => ?_
    split
    · exact h.trans (framerOnly_setFrm t _)
    · exact (readFrame_inCamera t).mono fun _ h' => h.trans h'

/-! ## The flusher -/

theorem stepFlush_inCamera (s : State) : (stepFlush s).InCamera (flusherOnly s) := by
  unfold stepFlush
  split
  · rcases camRead_cases Config.flushChunk s with h | ⟨f, h⟩ <;> rw [h] <;> rfl
  · rfl

theorem flushLoop_inCamera (n : Nat) (s : State) : (flushLoop n s).InCamera (flusherOnly s) := by
  induction n generalizing s with
  | zero => rfl
  | succ n ih =>
    refine (stepFlush_inCamera s).andThen (fun _ h => h) fun r t h => ?_
    cases r with
    | some r => exact h
    | none => exact (ih t).mono fun _ h' => h.trans h'

/-- A flush ends with a result or a `CamFault`, and only the flusher's registers and the channel have changed
(44_flusher.md R180, R184). -/
theorem flush_inCamera (s : State) : (flush s).InCamera (flusherOnly s) :=
  (flushLoop_inCamera _ _).mono fun _ h => (show flusherOnly s (flushStart s) from rfl).trans h

/-- `FL_N` is in its range (10_state.md R33). -/
def flushCountOk (s : State) : Prop := s.flu.n ≤ s.profile.flushMax

/-- A pass of the loop keeps `FL_N` in its range, however it ends (44_flusher.md R181). -/
theorem stepFlush_count {s : State} (h : flushCountOk s) : (stepFlush s).Ends flushCountOk := by
  unfold stepFlush
  split
  · rename_i hn
    rcases camRead_cases Config.flushChunk s with hr | ⟨f, hr⟩ <;> rw [hr]
    · exact Nat.succ_le_of_lt hn
    · exact h
  · exact h

theorem flushLoop_count (n : Nat) {s : State} (h : flushCountOk s) : (flushLoop n s).Ends flushCountOk := by
  induction n generalizing s with
  | zero => exact h
  | succ n ih =>
    refine (stepFlush_count h).andThen (fun _ h => h) fun r t ht => ?_
    cases r with
    | some r => exact ht
    | none => exact ih ht

/-- After a flush `FL_N` is in its range, whatever it was before (44_flusher.md R183). -/
theorem flush_count (s : State) : (flush s).Ends flushCountOk := flushLoop_count _ (Nat.zero_le _)

end Sys2Proof.Machine
end

