-- ==== Sys2Proof/Laws/PerInstr.lean ====
section
/-! SUPPORT. Families of lemmas made per instruction. `EncodedLength`: the word of a well-formed instruction has a length of its
format (30_encoding.md R90 to R101), and an internal operation has no word (R105). -/

namespace Sys2Proof.Laws.EncodedLength

/-- The lengths of the words of a format. -/
def fits (P : Profile) (n : Nat) : Format → Bool
  | .u1 | .respHandshake | .respRequest => n = 1
  | .sn => n = 3
  | .fc => n = 4
  | .cf => if P.hasAlgo then 6 ≤ n && n ≤ 261 else 5 ≤ n && n ≤ 260
  | .tx => n = P.txKnock.length || n = P.txAlgsel.length || n = P.txReqblk.length
  | .sr => n = if P.signalReportCk then 3 else 2
  | .br => n = if P.blockReportCk then 9 else 8

def Statement (i : Instr) : Prop :=
  ∀ (P : Profile) (fmt : Format) (bs : List Byte),
    i.wellFormed P = true → encode P i = some (fmt, bs) → fits P bs.length fmt = true

/-- An operation without a word. -/
theorem of_none {i : Instr} (h : ∀ P, encode P i = none) : Statement i := by
  intro P fmt bs _ he
  simp [h P] at he

/-- An operation whose word is the same list for all operands, or has a length that unfolding shows. -/
theorem of_some {i : Instr} (f : Format) (w : Profile → List Byte) (h : ∀ P, encode P i = some (f, w P))
    (hl : ∀ P, i.wellFormed P = true → fits P (w P).length f = true) : Statement i := by
  intro P fmt bs hw he
  rw [h P] at he
  cases he
  exact hl P hw

theorem sigLo : Statement Instr.sigLo := of_some _ _ (fun _ => rfl) fun _ _ => rfl

theorem sigHi : Statement Instr.sigHi := of_some _ _ (fun _ => rfl) fun _ _ => rfl

theorem camData : Statement Instr.camData := of_some _ _ (fun _ => rfl) fun _ _ => rfl

theorem unrecognized (cmd : Byte) : Statement (Instr.unrecognized cmd) := of_some _ _ (fun _ => rfl) fun _ _ => rfl

theorem respOk : Statement Instr.respOk := of_some _ _ (fun _ => rfl) fun _ _ => rfl

theorem respNotOk (cmd : Byte) : Statement (Instr.respNotOk cmd) := of_some _ _ (fun _ => rfl) fun _ _ => rfl

theorem respWrapped : Statement Instr.respWrapped := of_some _ _ (fun _ => rfl) fun _ _ => rfl

theorem respDirect : Statement Instr.respDirect := of_some _ _ (fun _ => rfl) fun _ _ => rfl

theorem respUnknown (cmd : Byte) : Statement (Instr.respUnknown cmd) := of_some _ _ (fun _ => rfl) fun _ _ => rfl

theorem cameraFrame (command : Byte) (algorithm : Option Byte) (payload : List Byte) (ck : Byte) : Statement (Instr.cameraFrame command algorithm payload ck) := by
  refine of_some _ _ (fun _ => rfl) fun P hw => ?_
  simp only [Instr.wellFormed, Bool.and_eq_true, decide_eq_true_eq] at hw
  obtain ⟨ha, hp⟩ := hw
  cases algorithm <;> simp [fits, ← ha] <;> omega

theorem sentinelH1 : Statement Instr.sentinelH1 := of_some _ _ (fun _ => rfl) fun _ _ => rfl

theorem sentinelH2 : Statement Instr.sentinelH2 := of_some _ _ (fun _ => rfl) fun _ _ => rfl

theorem chunkEmpty : Statement Instr.chunkEmpty := of_some _ _ (fun _ => rfl) fun _ _ => rfl

theorem chunkData (b0 b1 b2 b3 : Byte) : Statement (Instr.chunkData b0 b1 b2 b3) := of_some _ _ (fun _ => rfl) fun _ _ => rfl

theorem txKnock : Statement Instr.txKnock := of_some _ _ (fun _ => rfl) fun _ _ => by simp [fits]

theorem txAlgsel : Statement Instr.txAlgsel := of_some _ _ (fun _ => rfl) fun _ _ => by simp [fits]

theorem txReqblk : Statement Instr.txReqblk := of_some _ _ (fun _ => rfl) fun _ _ => by simp [fits]

theorem signalReport (index : BitVec 3) (freq : Bool) (mag : BitVec 7) (ck : Option Byte) : Statement (Instr.signalReport index freq mag ck) := by
  refine of_some _ _ (fun _ => rfl) fun P hw => ?_
  simp only [Instr.wellFormed, reportCkFits, decide_eq_true_eq] at hw
  subst hw
  cases h : P.signalReportCk <;> simp [fits, h]

theorem blockReport (b : Block) (ck : Option Byte) : Statement (Instr.blockReport b ck) := by
  refine of_some _ _ (fun _ => rfl) fun P hw => ?_
  simp only [Instr.wellFormed, reportCkFits, decide_eq_true_eq] at hw
  subst hw
  cases h : P.blockReportCk <;> simp [fits, h]

theorem checksum (s : List Byte) : Statement (Instr.checksum s) := of_none fun _ => rfl

theorem accStep (b : Byte) : Statement (Instr.accStep b) := of_none fun _ => rfl

theorem ckValidate : Statement Instr.ckValidate := of_none fun _ => rfl

theorem scan : Statement Instr.scan := of_none fun _ => rfl

theorem muxResetPulse : Statement Instr.muxResetPulse := of_none fun _ => rfl

theorem muxAdvancePulse : Statement Instr.muxAdvancePulse := of_none fun _ => rfl

theorem settle : Statement Instr.settle := of_none fun _ => rfl

theorem sample : Statement Instr.sample := of_none fun _ => rfl

theorem select (freq : Bool) : Statement (Instr.select freq) := of_none fun _ => rfl

theorem argmax : Statement Instr.argmax := of_none fun _ => rfl

theorem rescale (v : Sample) : Statement (Instr.rescale v) := of_none fun _ => rfl

theorem pack (freq : Bool) : Statement (Instr.pack freq) := of_none fun _ => rfl

theorem signal (freq : Bool) : Statement (Instr.signal freq) := of_none fun _ => rfl

theorem frameDecode : Statement Instr.frameDecode := of_none fun _ => rfl

theorem searchH1 : Statement Instr.searchH1 := of_none fun _ => rfl

theorem searchH2 : Statement Instr.searchH2 := of_none fun _ => rfl

theorem readCmd : Statement Instr.readCmd := of_none fun _ => rfl

theorem readAlgo : Statement Instr.readAlgo := of_none fun _ => rfl

theorem readLen : Statement Instr.readLen := of_none fun _ => rfl

theorem readPayload : Statement Instr.readPayload := of_none fun _ => rfl

theorem readCk : Statement Instr.readCk := of_none fun _ => rfl

theorem tagDegraded : Statement Instr.tagDegraded := of_none fun _ => rfl

theorem result : Statement Instr.result := of_none fun _ => rfl

theorem sentinelBytes (code : SyncCode) : Statement (Instr.sentinelBytes code) := of_none fun _ => rfl

theorem flush : Statement Instr.flush := of_none fun _ => rfl

theorem knock : Statement Instr.knock := of_none fun _ => rfl

theorem algsel : Statement Instr.algsel := of_none fun _ => rfl

theorem handshake : Statement Instr.handshake := of_none fun _ => rfl

theorem requestBlocks : Statement Instr.requestBlocks := of_none fun _ => rfl

theorem extract (f : Frame) (off : Offsets) : Statement (Instr.extract f off) := of_none fun _ => rfl

theorem blockReportBuild (b : Option Block) : Statement (Instr.blockReportBuild b) := of_none fun _ => rfl

theorem cameraData : Statement Instr.cameraData := of_none fun _ => rfl

theorem arbLoop : Statement Instr.arbLoop := of_none fun _ => rfl

theorem setRx : Statement Instr.setRx := of_none fun _ => rfl

theorem waitCmd : Statement Instr.waitCmd := of_none fun _ => rfl

theorem setTx : Statement Instr.setTx := of_none fun _ => rfl

theorem dispatch : Statement Instr.dispatch := of_none fun _ => rfl

theorem writeResp : Statement Instr.writeResp := of_none fun _ => rfl

theorem txSettle : Statement Instr.txSettle := of_none fun _ => rfl

theorem fatalStop (c : FatalCause) : Statement (Instr.fatalStop c) := of_none fun _ => rfl

theorem upRead : Statement Instr.upRead := of_none fun _ => rfl

theorem upWrite (s : List Byte) : Statement (Instr.upWrite s) := of_none fun _ => rfl

theorem camRead (n : Nat) : Statement (Instr.camRead n) := of_none fun _ => rfl

theorem camWrite (s : List Byte) : Statement (Instr.camWrite s) := of_none fun _ => rfl

theorem pinSet (pin : Pin) (level : Bool) : Statement (Instr.pinSet pin level) := of_none fun _ => rfl

theorem analogRead : Statement Instr.analogRead := of_none fun _ => rfl

theorem sleep (d : Nat) : Statement (Instr.sleep d) := of_none fun _ => rfl

theorem diag (e : DiagTag) : Statement (Instr.diag e) := of_none fun _ => rfl

end Sys2Proof.Laws.EncodedLength
end

