-- ==== Sys2Proof/Laws/Sequencer.lean ====
section
/-! SUPPORT. What taking a `Fatal` does, in one piece and step by step, and what a step of the sequencer can end in. -/

namespace Sys2Proof.Machine

/-! ## Taking a `Fatal` (46_arbiter.md R232) -/

theorem takeFatal_of_receive {s : State} (c : FatalCause) (h : s.arb.mode = .receive) :
    takeFatal c s = s.setArb { s.arb with halt := true, haltCause := c, ph := .halted } := by
  simp [takeFatal, h]

theorem takeFatal_of_transmit {s : State} (c : FatalCause) (h : s.arb.mode = .transmit) :
    takeFatal c s
      = (restoreDir s).setArb { s.arb with mode := .receive, halt := true, haltCause := c, ph := .halted } := by
  simp [takeFatal, h]

@[simp] theorem takeFatal_halt (c : FatalCause) (s : State) : (takeFatal c s).arb.halt = true := rfl
@[simp] theorem takeFatal_haltCause (c : FatalCause) (s : State) : (takeFatal c s).arb.haltCause = c := rfl
@[simp] theorem takeFatal_ph (c : FatalCause) (s : State) : (takeFatal c s).arb.ph = .halted := rfl

@[simp] theorem takeFatal_mode (c : FatalCause) (s : State) : (takeFatal c s).arb.mode = .receive := by
  cases h : s.arb.mode <;> simp [takeFatal, h]

@[simp] theorem restoreDir_stopping (s : State) : (restoreDir s).stopping = s.stopping := by
  unfold restoreDir; split <;> rfl

@[simp] theorem takeFatal_stopping (c : FatalCause) (s : State) : (takeFatal c s).stopping = s.stopping := by
  cases h : s.arb.mode <;> simp [takeFatal, h]

@[simp] theorem enterFatal_of_transmit {s : State} (c : FatalCause) (h : s.arb.mode = .transmit) :
    enterFatal c s = s.setStopping (some c) := by simp [enterFatal, h]

@[simp] theorem enterFatal_of_receive {s : State} (c : FatalCause) (h : s.arb.mode = .receive) :
    enterFatal c s = takeFatal c s := by simp [enterFatal, h]

/-- Entering and leaving `FATAL_STOP` in two steps is taking the `Fatal` in one piece. -/
theorem leaveFatal_setStopping {s : State} (c : FatalCause) (h : s.stopping = none) :
    leaveFatal c (s.setStopping (some c)) = takeFatal c s := by
  have : s.setStopping none = s := by cases s; simp_all [State.setStopping]
  simp [leaveFatal, this]

/-! ## A step of the sequencer -/

@[simp] theorem closeStep_ok (a : Unit) (s : State) : (Eff.ok a s).closeStep = .next s := rfl
@[simp] theorem closeStep_fatal (c : FatalCause) (s : State) : (Eff.fatal c s : Eff Unit).closeStep = .next (enterFatal c s) := rfl
@[simp] theorem closeStep_blocked (s : State) : (Eff.blocked s : Eff Unit).closeStep = .next s := rfl
@[simp] theorem closeStep_stop (f : Fault) : (Eff.stop f : Eff Unit).closeStep = .fault f := rfl

@[simp] theorem callDue_of_stopping {s : State} {c : FatalCause} (h : s.stopping = some c) :
    callDue s = .ok () (leaveFatal c s) := by simp [callDue, h]

@[simp] theorem callDue_of_running {s : State} (h : s.stopping = none) : callDue s = loopCall s := by simp [callDue, h]

/-- Everything a step can be while nothing is called from outside. -/
theorem step_cases {s t : State} (hcall : s.call = none) (h : step s = .next t) :
    s.arb.halt = false ∧ s.profile.wf = true
    ∧ ((∃ c, s.stopping = some c ∧ t = leaveFatal c s)
      ∨ (s.stopping = none ∧ (loopCall s).closeStep = .next t)) := by
  unfold step at h
  split at h
  · cases h
  · rename_i hh
    split at h
    · rename_i hw
      simp only [hcall] at h
      refine ⟨by simpa using hh, hw, ?_⟩
      cases hs : s.stopping with
      | some c => exact .inl ⟨c, rfl, by simpa [hs] using h.symm⟩
      | none => exact .inr ⟨rfl, by simpa [hs] using h⟩
    · cases h

end Sys2Proof.Machine
end

