-- ==== Sys2Proof/Tests/Slice0.lean ====
section
/-! SUPPORT. The model's own tests: ill-formed terms that the checks refuse, words written out from the spec's encodings, one
step on small states with the spec's own results (95_test_vectors.md, cited by their ids), and, for every statement with
hypotheses, a state that meets them. -/

namespace Sys2Proof.Tests

set_option Elab.async false

open Sys2Proof.Machine

/-! ## Helpers -/

/-- An environment with a camera buffer, HOST bytes and samples; no fault to come. -/
def envOf (up cam : List Byte) (adc : List (Nat × Nat)) : Env where
  up := up.map .byte
  upWr := []
  camBuf := cam
  camRd := []
  camWr := []
  adc := adc.map fun q => .sample (Sample.ofFrac q.1 q.2)
  pin := []
  clk := []
  muxPulses := 0

/-- A state with every register at a concrete value. -/
def machine (P : Profile) (mode : Mode) (env : Env) : State where
  profile := P
  connected := true
  arb := ⟨.dispatch, mode, 0x63, Vector.replicate 9 0, 0, false, .uplink⟩
  pins := ⟨mode = .transmit, false, false⟩
  frm := ⟨.idle, 0, 0, 0, 0, 0, 0, Vector.replicate 255 0, 0, false, none⟩
  flu := ⟨Vector.replicate 4 0, 0⟩
  ccp := ⟨.idle, Vector.replicate 8 0, false⟩
  scn := ⟨.idle, Vector.replicate 8 Sample.zero, 0, 0, 0, false, false⟩
  env := env
  trace := []
  fresh := 0
  ret := .unit
  call := none
  stopping := none

/-- A camera buffer under TP0, in TRANSMIT and connected. -/
def withCam (cam : List Byte) : State := machine Config.tp0 .transmit (envOf [] cam [])

/-- The fixture of P1 and S1, and the other sample vectors. -/
def fixture : List (Nat × Nat) := [(1, 10), (9, 10), (2, 10), (1, 10), (1, 10), (1, 10), (1, 10), (1, 10)]

def withAdc (P : Profile) (adc : List (Nat × Nat)) : State := machine P .transmit (envOf [] [] adc)

/-- One field of the next state. -/
def after {α : Type} (o : Host.Outcome State Fault Refusal) (f : State → α) : Option α :=
  match o with
  | .next s => some (f s)
  | _ => none

def fault? (o : Host.Outcome State Fault Refusal) : Option Fault :=
  match o with
  | .fault r => some r
  | _ => none

def refusal? (o : Host.Outcome State Fault Refusal) : Option Refusal :=
  match o with
  | .refused r => some r
  | _ => none

/-- The block `B`, the frames `OK0` and `DF0`, TP1's `OK1` and `DF1` (95_test_vectors.md section 0). -/
def blockB : List Byte := [0x10, 0x00, 0x20, 0x00, 0x30, 0x00, 0x40, 0x00]
def ok0 : List Byte := [0xC3, 0x3C, 0x20, 0x01, 0x00, 0x20]
def df0 : List Byte := [0xC3, 0x3C, 0x22, 0x01, 0x08] ++ blockB ++ [0xCA]
def ok1 : List Byte := [0xC3, 0x3C, 0x20, 0x00, 0x1F]
def df1 : List Byte := [0xC3, 0x3C, 0x22, 0x08] ++ blockB ++ [0xC9]

/-- The bytes written to the uplink, oldest first. -/
def written (s : State) : List (List Byte) :=
  s.events.filterMap fun e => match e with
    | .upWrite bs => some bs
    | _ => none

def camWrites (s : State) : List (List Byte) :=
  s.events.filterMap fun e => match e with
    | .camWrite bs => some bs
    | _ => none

def reads (n : Nat) (s : State) : Nat :=
  s.trace.countP fun e => match e with
    | .camRead m _ => m = n
    | _ => false

/-! ## Well-formedness refuses -/

theorem test_profiles_pass : Config.tp0.wf = true ∧ Config.tp1.wf = true := by decide
theorem test_profile_offset_254_refused : ({ Config.tp0 with offDirect := ⟨0, 2, 4, 254⟩ } : Profile).wf = false := by decide
theorem test_profile_offset_253_passes : ({ Config.tp0 with offWrapped := ⟨253, 3, 5, 7⟩ } : Profile).wf = true := by decide
theorem test_profile_empty_knock_refused : ({ Config.tp0 with txKnock := [] } : Profile).wf = false := by decide
theorem test_profile_empty_request_refused : ({ Config.tp0 with txReqblk := [] } : Profile).wf = false := by decide
theorem test_profile_empty_select_refused : ({ Config.tp0 with txAlgsel := [] } : Profile).wf = false := by decide
theorem test_profile_flush_max_0_refused : ({ Config.tp0 with flushMax := 0 } : Profile).wf = false := by decide
theorem test_profile_scale_126_refused : ({ Config.tp0 with signalScale := 126 } : Profile).wf = false := by decide
theorem test_profile_scope_refused : ({ Config.tp0 with cksumScope := .other } : Profile).wf = false := by decide

theorem test_ill_formed_refused :
    (Instr.unrecognized 0x6C).wellFormed Config.tp0 = false
    ∧ (Instr.respNotOk 0x20).wellFormed Config.tp0 = false
    ∧ (Instr.respUnknown 0x21).wellFormed Config.tp0 = false
    ∧ Instr.respDirect.wellFormed { Config.tp0 with cmdDirect := 0x21 } = false
    ∧ (Instr.cameraFrame 0x20 none [] 0).wellFormed Config.tp0 = false
    ∧ (Instr.cameraFrame 0x20 (some 1) (List.replicate 256 0) 0).wellFormed Config.tp0 = false
    ∧ (Instr.chunkData 0xFF 0xFF 0xFF 0xFF).wellFormed Config.tp0 = false
    ∧ Instr.txAlgsel.wellFormed Config.tp1 = false
    ∧ Instr.txReqblk.wellFormed { Config.tp0 with txReqblk := Config.tp0.txKnock } = false := by decide +kernel

theorem test_ill_formed_operands_refused :
    (Instr.signalReport 1 false 0x72 none).wellFormed Config.tp0 = false
    ∧ (Instr.signalReport 1 false 0x72 (some 0x74)).wellFormed Config.tp0 = false
    ∧ (Instr.signalReport 1 false 0x73 (some 0x74)).wellFormed Config.tp1 = false
    ∧ (Instr.blockReport (Vector.replicate 8 1) (some 0)).wellFormed Config.tp0 = false
    ∧ Instr.readAlgo.wellFormed Config.tp1 = false ∧ Instr.algsel.wellFormed Config.tp1 = false
    ∧ (Instr.extract ⟨0x22, none, 7, [0, 0, 0, 0, 0, 0, 0], 0, true⟩ ⟨0, 2, 4, 6⟩).wellFormed Config.tp1 = false
    ∧ (Instr.upWrite []).wellFormed Config.tp0 = false ∧ (Instr.camRead 2).wellFormed Config.tp0 = false
    ∧ (Instr.camWrite []).wellFormed Config.tp0 = false := by decide +kernel

/-! ## Words written out from the spec's encodings -/

/-- R91: 'l' 0b01101100, 'h' 0b01101000, 'c' 0b01100011; 'L', 'H', 'C' and any other byte are "other". -/
theorem test_decode_uplink :
    decode Config.tp0 .u1 [0b01101100] = .ok .sigLo ∧ decode Config.tp0 .u1 [0b01101000] = .ok .sigHi
    ∧ decode Config.tp0 .u1 [0b01100011] = .ok .camData ∧ decode Config.tp0 .u1 [0x4C] = .ok (.unrecognized 0x4C)
    ∧ decode Config.tp0 .u1 [0x48] = .ok (.unrecognized 0x48) ∧ decode Config.tp0 .u1 [0x43] = .ok (.unrecognized 0x43)
    ∧ decode Config.tp0 .u1 [] = .reject (.wrongLength .u1) := by decide

/-- R102 with TP0's codes. -/
theorem test_decode_responses :
    decode Config.tp0 .respHandshake [0x20] = .ok .respOk ∧ decode Config.tp0 .respHandshake [0x21] = .ok (.respNotOk 0x21)
    ∧ decode Config.tp0 .respRequest [0x21] = .ok .respWrapped ∧ decode Config.tp0 .respRequest [0x22] = .ok .respDirect
    ∧ decode Config.tp0 .respRequest [0x32] = .ok (.respUnknown 0x32) := by decide

/-- R94, with and without the algorithm byte; a frame cut short, one too long, a wrong header. -/
theorem test_decode_camera_frame :
    decode Config.tp0 .cf df0 = .ok (.cameraFrame 0x22 (some 0x01) blockB 0xCA)
    ∧ decode Config.tp1 .cf df1 = .ok (.cameraFrame 0x22 none blockB 0xC9)
    ∧ decode Config.tp0 .cf ok0 = .ok (.cameraFrame 0x20 (some 0x01) [] 0x20)
    ∧ decode Config.tp0 .cf ok0.dropLast = .reject .frameTooShort
    ∧ decode Config.tp0 .cf (ok0 ++ [0]) = .reject .frameTooLong
    ∧ decode Config.tp0 .cf [0xC4, 0x3C] = .reject .noHeader1 ∧ decode Config.tp0 .cf [0xC3, 0xC3] = .reject .noHeader2 := by
  decide +kernel

/-- R99, R100. -/
theorem test_decode_sentinels_and_chunks :
    decode Config.tp0 .sn [0xDE, 0xAD, 0x01] = .ok .sentinelH1 ∧ decode Config.tp0 .sn [0xDE, 0xAD, 0x02] = .ok .sentinelH2
    ∧ decode Config.tp0 .sn [0xDE, 0xAD, 0x03] = .reject .notSentinel
    ∧ decode Config.tp0 .fc [0xFF, 0xFF, 0xFF, 0xFF] = .ok .chunkEmpty
    ∧ decode Config.tp0 .fc [0xFF, 0xFF, 0xFF, 0x00] = .ok (.chunkData 0xFF 0xFF 0xFF 0x00) := by decide

/-- R101: TP0's three frames; TP1 has no select. -/
theorem test_decode_request_frames :
    decode Config.tp0 .tx [0xC3, 0x3C, 0x30, 0x01, 0x00, 0x30] = .ok .txKnock
    ∧ decode Config.tp0 .tx [0xC3, 0x3C, 0x31, 0x01, 0x01, 0x01, 0x33] = .ok .txAlgsel
    ∧ decode Config.tp0 .tx [0xC3, 0x3C, 0x32, 0x01, 0x00, 0x32] = .ok .txReqblk
    ∧ decode Config.tp1 .tx [0xC3, 0x3C, 0x31, 0x01, 0x01, 0x01, 0x33] = .reject .notRequestFrame := by decide

/-- R92 (P1's report, frequency bit in bit 7), R93 (K0's report). -/
theorem test_decode_reports :
    decode Config.tp0 .sr [0x01, 0xF2, 0xF3] = .ok (.signalReport 1 true 0x72 (some 0xF3))
    ∧ decode Config.tp1 .sr [0x07, 0x01] = .ok (.signalReport 7 false 0x01 none)
    ∧ decode Config.tp0 .sr [0x08, 0x00, 0x08] = .reject .notSignalReport
    ∧ decode Config.tp0 .br (blockB ++ [0xA0])
        = .ok (.blockReport #v[0x10, 0x00, 0x20, 0x00, 0x30, 0x00, 0x40, 0x00] (some 0xA0)) := by decide

/-- R101: the test profiles' frames are built with `encode_frame`. -/
theorem test_encode_frame :
    encodeFrame Config.tp0 0x31 0x01 [0x01] = Config.tp0.txAlgsel ∧ encodeFrame Config.tp0 0x22 0x01 blockB = df0
    ∧ encodeFrame Config.tp1 0x30 0x01 [] = Config.tp1.txKnock ∧ encodeFrame Config.tp1 0x22 0x01 blockB = df1 := by
  decide +kernel

/-- The opcode table's numbers: SENTINEL_H1 is 0xDEAD01, CHUNK_EMPTY 0xFFFFFFFF, SIG_LO 0x6C. -/
theorem test_decode_table_words :
    decodeTableWord 24 0xDEAD01 = some .sentinelH1 ∧ decodeTableWord 24 0xDEAD02 = some .sentinelH2
    ∧ decodeTableWord 32 0xFFFFFFFF = some .chunkEmpty ∧ decodeTableWord 8 0x6C = some .sigLo
    ∧ decodeTableWord 8 0x00 = some (.unrecognized 0x00)
    ∧ decodeTableWord 24 0x01F2F3 = some (.signalReport 1 true 0x72 (some 0xF3)) := by decide +kernel

/-- R107: TP0's little order, and the other. -/
theorem test_field_value :
    fieldValue Config.tp0 0x10 0x02 = 528 ∧ fieldValue { Config.tp0 with camU16Order := .big } 0x10 0x02 = 4098 := by decide

/-! ## Checksum (CK1 to CK13) -/

theorem test_checksum_vectors :
    checksum [] = 0x00 ∧ checksum [0xFF, 0x01] = 0x00 ∧ checksum [0x80, 0x80] = 0x00 ∧ checksum [1, 2, 3, 4] = 0x0A
    ∧ checksum [0xFF, 0xFF, 0xFF, 0xFF] = 0xFC ∧ checksum [0xDE, 0xAD, 0x01] = 0x8C ∧ checksum blockB = 0xA0
    ∧ checksum df0.dropLast = 0xCA := by decide

theorem test_checksum_all_bytes : checksum ((List.range 256).map fun i => BitVec.ofNat 8 i) = 0x80 := by decide +kernel

/-- `ACC = CA`: CA is good; CB and the complement 35 are not. -/
theorem test_ck_validate :
    ckMatches 0xCA 0xCA = true ∧ ckMatches 0xCB 0xCA = false ∧ ckMatches 0x35 0xCA = false
    ∧ after (exec (.accStep 0x3C) { withCam [] with frm := { (withCam []).frm with acc := 0xC3 } }) (·.frm.acc)
        = some 0xFF := by decide

/-! ## Scanner and selector (M1 to M3, S1 to S7) -/

theorem test_scan_counts :
    after (exec .scan (withAdc Config.tp0 fixture)) (fun s => (s.trace.length, s.env.muxPulses, s.scn.k, s.scn.ph))
      = some (49, 8, 7, .done) := by decide +kernel

theorem test_scan_samples_in_order :
    after (exec .scan (withAdc Config.tp0 fixture)) (fun s => (s.scn.s[0], s.scn.s[1], s.scn.s[2]))
      = some (Sample.ofFrac 1 10, Sample.ofFrac 9 10, Sample.ofFrac 1 5) := by decide +kernel

/-- M2: the third read raises; 18 scanner events, the fault, and the pin restored. -/
theorem test_scan_analog_fault :
    after (exec .scan { withAdc Config.tp0 [] with
      env := { (withAdc Config.tp0 []).env with
        adc := [.sample Sample.zero, .sample Sample.one, .fatal] } })
      (fun s => (s.trace.length, s.trace.take 2, s.arb.halt, s.arb.haltCause, s.arb.mode))
      = some (20, [.pin .dir false, .fatal .analog], true, .analog, .receive) := by decide +kernel

/-- M3. -/
theorem test_scan_gpio_fault :
    after (exec .scan { withAdc Config.tp0 [] with env := { (withAdc Config.tp0 []).env with pin := [true] } })
      (fun s => (s.events, s.arb.haltCause)) = some ([.fatal .gpio, .pin .dir false], .gpio) := by decide +kernel

theorem test_signal_S1 :
    after (exec (.signal false) (withAdc Config.tp0 fixture)) (·.ret) = some (.bytes [0x01, 0x72, 0x73])
    ∧ after (exec (.signal true) (withAdc Config.tp1 fixture)) (·.ret) = some (.bytes [0x01, 0xF3]) := by decide +kernel

theorem test_signal_S2 :
    after (exec (.signal true) (withAdc Config.tp0 (List.replicate 8 (1, 1)))) (·.ret) = some (.bytes [0x00, 0xFF, 0xFF])
    ∧ after (exec (.signal false) (withAdc Config.tp1 (List.replicate 8 (1, 1)))) (·.ret) = some (.bytes [0x00, 0x00]) := by
  decide +kernel

theorem test_sig_lo_S4 :
    after (exec .sigLo (withAdc Config.tp0 [(1, 2), (3, 4), (3, 4), (1, 4), (3, 4), (0, 1), (0, 1), (0, 1)])) respBytes
      = some [0x01, 0x5F, 0x60] := by decide +kernel

theorem test_sig_hi_S7 :
    after (exec .sigHi (withAdc Config.tp0 [(0, 1), (0, 1), (0, 1), (255, 256), (0, 1), (0, 1), (0, 1), (0, 1)])) respBytes
      = some [0x03, 0xFE, 0x01] := by decide +kernel

theorem test_sig_lo_S5_S6 :
    after (exec .sigLo (withAdc Config.tp0 (List.replicate 7 (0, 1) ++ [(1, 127)]))) respBytes = some [0x07, 0x01, 0x08]
    ∧ after (exec .sigLo (withAdc Config.tp0 ((1, 2) :: List.replicate 7 (0, 1)))) respBytes = some [0x00, 0x3F, 0x3F] := by
  decide +kernel

/-! ## Framer (V1 to V18) -/

def decoded (s : State) : Option (Ret × Nat × Nat) := after (exec .frameDecode s) fun t => (t.ret, reads 1 t, t.frm.att)

theorem test_decode_V1_V2 :
    decoded (withCam ([0x00, 0x7E, 0x11] ++ df0))
      = some (.frame (.ok ⟨0x22, some 0x01, 8, blockB, 0xCA, true⟩), 17, 1)
    ∧ decoded (withCam (df0.dropLast ++ [0xCB]))
      = some (.frame (.ok ⟨0x32, some 0x01, 8, blockB, 0xCB, false⟩), 14, 1) := by decide +kernel

theorem test_decode_V4_V5 :
    decoded (withCam (List.replicate 31 0 ++ df0))
      = some (.frame (.ok ⟨0x22, some 0x01, 8, blockB, 0xCA, true⟩), 45, 1)
    ∧ decoded (withCam (List.replicate 32 0 ++ df0)) = some (.frame (.syncError .h1), 32, 32) := by decide +kernel

theorem test_decode_V8_V9 :
    decoded (withCam ([0xC3] ++ List.replicate 31 0 ++ df0.drop 1))
      = some (.frame (.ok ⟨0x22, some 0x01, 8, blockB, 0xCA, true⟩), 45, 32)
    ∧ decoded (withCam ([0xC3] ++ List.replicate 32 0 ++ df0.drop 1)) = some (.frame (.syncError .h2), 33, 32) := by
  decide +kernel

theorem test_decode_V11_V12_V13 :
    decoded (withCam [0xC3, 0x3C, 0xF5, 0x01, 0x01, 0xAA, 0xA1])
      = some (.frame (.ok ⟨0x05, some 0x01, 1, [0xAA], 0xA1, false⟩), 7, 1)
    ∧ decoded (withCam [0xC3, 0xC3, 0x3C, 0x3C, 0x01, 0x00])
      = some (.frame (.ok ⟨0x4C, some 0x01, 0, [], 0xFF, false⟩), 7, 2)
    ∧ decoded (withCam [0xC3, 0x3C, 0x22, 0x01, 0x08, 0x10, 0x00, 0x20])
      = some (.frame (.ok ⟨0x32, some 0x01, 8, [0x10, 0x00, 0x20, 0xFF, 0xFF, 0xFF, 0xFF, 0xFF], 0xFF, false⟩), 14, 1) := by
  decide +kernel

theorem test_decode_V14 :
    decoded (machine Config.tp1 .transmit (envOf [] df1 []))
      = some (.frame (.ok ⟨0x22, none, 8, blockB, 0xC9, true⟩), 13, 1) := by decide +kernel

theorem test_decode_V16 :
    (decoded (withCam ([0xC3, 0x3C, 0x22, 0x01, 0xFF] ++ ((List.range 255).map fun i => BitVec.ofNat 8 (i % 251)) ++ [0xB6]))).map
      (fun q => (match q.1 with
        | .frame (.ok f) => (f.command, f.payload.length, f.payload.getLast?, f.checksumOk)
        | _ => (0, 0, none, false), q.2.1)) = some ((0x22, 255, some 3, true), 261) := by decide +kernel

/-- The fault of section 5: the 4th read raises; `F_CMD` is written, `F_ALG` is not. -/
theorem test_decode_fault :
    after (exec .frameDecode { withCam [0xC3, 0x3C, 0x22] with
      env := { (withCam [0xC3, 0x3C, 0x22]).env with camRd := [none, none, none, some ⟨.busError, 0⟩] } })
      (fun s => (s.frm.cmd, s.frm.alg, s.connected, s.trace.head?)) = some (0x22, 0, false, some (.camFault .busError)) := by
  decide +kernel

theorem test_sentinel_bytes :
    after (exec (.sentinelBytes .h1) (withCam [])) (·.ret) = some (.bytes [0xDE, 0xAD, 0x01])
    ∧ after (exec .sentinelH2 (withCam [])) (fun s => (s.ret, s.frm.res))
        = some (.bytes [0xDE, 0xAD, 0x02], some (.syncError .h2)) := by decide +kernel

theorem test_camera_frame_row :
    after (exec (.cameraFrame 0x22 (some 0x01) blockB 0xCA) (withCam [0x55])) (fun s => (s.ret, s.env.camBuf))
      = some (.frame (.ok ⟨0x22, some 0x01, 8, blockB, 0xCA, true⟩), [0x55]) := by decide +kernel

/-! ## Flusher (L1 to L6) -/

def flushed (s : State) : Option (Ret × Nat × List Byte) := after (exec .flush s) fun t => (t.ret, reads 4 t, t.env.camBuf)

theorem test_flush_L1_L2 :
    flushed (withCam []) = some (.flush (.drained 1), 1, [])
    ∧ flushed (withCam [0x12, 0x34, 0x56, 0x78, 0x9A]) = some (.flush (.drained 3), 3, []) := by decide +kernel

theorem test_flush_L3_L4 :
    flushed (withCam (List.replicate 200 0)) = some (.flush .exhausted, 32, List.replicate 72 0)
    ∧ flushed (withCam [0xFF, 0xFF, 0xFF, 0xFF, 0x12, 0x34]) = some (.flush (.drained 1), 1, [0x12, 0x34]) := by
  decide +kernel

theorem test_flush_L6 :
    flushed (machine { Config.tp0 with flushMax := 1 } .transmit (envOf [] [0x12, 0x34, 0x56, 0x78] []))
      = some (.flush .exhausted, 1, []) := by decide +kernel

theorem test_chunk_rows :
    after (exec .chunkEmpty (withCam [])) (·.ret) = some (.flush (.drained 1))
    ∧ after (exec (.chunkData 0xFF 0xFF 0xFF 0) (withCam [])) (fun s => (s.ret, s.flu.n)) = some (.unit, 1) := by
  decide +kernel

/-! ## Camera protocol (K0 to K13) -/

def reported (s : State) : Option (Ret × Nat × Nat × Nat × Bool) :=
  after (exec .cameraData s) fun t => (t.ret, reads 1 t, reads 4 t, (camWrites t).length, t.connected)

def zeros9 : Ret := .bytes [0, 0, 0, 0, 0, 0, 0, 0, 0]

def reportB : Ret := .bytes (blockB ++ [0xA0])

def absent (s : State) : State := s.setConnected false

theorem test_camera_K0_K1 :
    reported (withCam df0) = some (reportB, 14, 0, 1, true)
    ∧ reported (withCam (df0.dropLast ++ [0xCB])) = some (zeros9, 14, 1, 1, true) := by decide +kernel

theorem test_camera_K2_K3 :
    reported (withCam [0xC3, 0x3C, 0x22, 0x01, 0x07, 0x10, 0x00, 0x20, 0x00, 0x30, 0x00, 0x40, 0xC9, 0xAB, 0xCD])
      = some (zeros9, 13, 2, 1, true)
    ∧ reported (withCam ([0xC3, 0x3C, 0x12, 0x01, 0x08] ++ blockB ++ [0x00])) = some (reportB, 14, 0, 1, true) := by
  decide +kernel

theorem test_camera_K5_K6 :
    reported (withCam [0xC3, 0x3C, 0x21, 0x01, 0x00, 0x21]) = some (zeros9, 38, 1, 1, true)
    ∧ reported (withCam ([0xC3, 0x3C, 0x21, 0x01, 0x00, 0x21] ++ df0)) = some (zeros9, 20, 1, 1, true) := by
  decide +kernel

theorem test_camera_K7_K13 :
    reported (absent (withCam [0xC3, 0x3C, 0x20, 0x01, 0x00, 0x21])) = some (zeros9, 6, 0, 1, false)
    ∧ reported (absent (withCam (ok0 ++ [0xC3, 0x3C, 0x21, 0x01, 0x00, 0x21]))) = some (zeros9, 12, 0, 2, false) := by
  decide +kernel

theorem test_camera_K8_K9 :
    reported (absent { withCam [] with env := { (withCam []).env with camWr := [some .noResponse] } })
      = some (zeros9, 0, 0, 0, false)
    ∧ reported { withCam [0xC3, 0x3C, 0x55, 0x01, 0x00, 0x55, 1, 2, 3, 4] with
        env := { (withCam [0xC3, 0x3C, 0x55, 0x01, 0x00, 0x55, 1, 2, 3, 4]).env with
          camRd := [none, none, none, none, none, none, some ⟨.zeroLength, 0⟩] } }
      = some (zeros9, 6, 0, 1, false) := by decide +kernel

theorem test_camera_K11 :
    reported (withCam ([0xC3, 0x3C, 0x21, 0x01, 0x00, 0x21]
        ++ [0xC3, 0x3C, 0x99, 0x01, 0x09, 0xEE, 0x11, 0x01, 0x22, 0x02, 0x33, 0x03, 0x44, 0x04, 0x44]))
      = some (.bytes [0x11, 0x01, 0x22, 0x02, 0x33, 0x03, 0x44, 0x04, 0xB4], 21, 0, 1, true) := by decide +kernel

theorem test_camera_K12 :
    reported (absent (machine Config.tp1 .transmit (envOf [] (ok1 ++ df1) []))) = some (.bytes blockB, 18, 0, 2, true) := by
  decide +kernel

theorem test_response_rows :
    after (exec .respOk { withCam [] with ccp := { (withCam []).ccp with ph := .algRx }, connected := false })
      (fun s => (s.ccp.ph, s.connected)) = some (.reqTx, true)
    ∧ after (exec (.respNotOk 0x30) (withCam [])) (fun s => (s.ret, s.connected)) = some (zeros9, false)
    ∧ after (exec (.respUnknown 0x55) (withCam [1])) (fun s => (s.ret, s.flu.n, s.connected)) = some (.block none, 2, true) := by
  decide +kernel

/-! ## Arbiter (Q1 to Q6, P1, P2) -/

theorem test_cycle_Q1 :
    after (exec .arbLoop (machine Config.tp0 .transmit (envOf [0x78] [] []))) (·.events)
      = some [.pin .dir false, .upRead 0x78, .pin .dir true, .diag (.unrecognized 0x78), .sleep 1] := by decide +kernel

theorem test_cycle_Q3_Q6 :
    after (exec .arbLoop { machine Config.tp0 .transmit (envOf [] [] []) with
      env := { envOf [] [] [] with up := [.fatal] } }) (fun s => (s.events, s.arb.haltCause, s.arb.mode))
      = some ([.pin .dir false, .fatal .uplink], .uplink, .receive)
    ∧ after (exec .arbLoop { machine Config.tp0 .transmit (envOf [] [] []) with
      env := { envOf [0x6C] [] [] with pin := [false, true] } }) (fun s => (s.events, s.arb.haltCause, s.arb.mode))
      = some ([.pin .dir false, .upRead 0x6C, .fatal .gpio], .gpio, .receive) := by decide +kernel

/-- Q5: the write fails after a good report; `CONNECTED` keeps what the cycle gave it. -/
theorem test_cycle_Q5 :
    after (exec .arbLoop { machine Config.tp0 .transmit (envOf [] [] []) with
      env := { envOf [0x63] df0 [] with upWr := [true] } }) (fun s => (s.trace.take 2, s.arb.halt, s.arb.mode, s.connected))
      = some ([.pin .dir false, .fatal .uplink], true, .receive, true) := by decide +kernel

theorem test_cycle_P1 :
    after (exec .arbLoop (machine Config.tp0 .transmit (envOf [0x6C] [] fixture)))
      (fun s => (written s, s.trace.length, s.scn.idxmax, s.scn.mag, s.arb.respLen))
      = some ([[0x01, 0x72, 0x73]], 54, 1, 0x72, 3) := by decide +kernel

theorem test_cycle_P2 :
    after (exec .arbLoop (absent (machine Config.tp0 .transmit (envOf [0x63] (ok0 ++ ok0 ++ df0) []))))
      (fun s => (written s, camWrites s, s.trace.length, s.connected))
      = some ([blockB ++ [0xA0]], [Config.tp0.txKnock, Config.tp0.txAlgsel, Config.tp0.txReqblk], 34, true) := by
  decide +kernel

theorem test_fatal_stop_swallows :
    after (exec (.fatalStop .clock) { withCam [] with env := { (withCam []).env with pin := [true] } })
      (fun s => (s.arb.mode, s.arb.ph, s.trace, s.fresh)) = some (.receive, .halted, [.fatal .gpio], 1) := by decide +kernel

theorem test_mode_checks :
    fault? (exec .upRead (withCam [])) = some .readWhileTransmit
    ∧ fault? (exec (.upWrite [1, 2]) (machine Config.tp0 .receive (envOf [] [] []))) = some .writeWhileReceive
    ∧ refusal? (exec (.upWrite [1]) (withCam [])) = some .operandOutOfDomain
    ∧ after (exec (.upWrite [1, 2]) (withCam [])) written = some [[1, 2]] := by decide +kernel

/-! ## The step -/

theorem test_step_runs_a_table_word :
    after (step ((withCam []).withFetchWord 8 0x78)) (fun s => (s.events, s.call)) = some ([.diag (.unrecognized 0x78)], none)
    ∧ after (step ((withCam []).withFetchWord 32 0xFFFFFFFF)) (·.ret) = some (.flush (.drained 1)) := by decide +kernel

theorem test_step_first_after_reset :
    after (step State.reset) (fun s => (s.events, s.arb.ph, s.arb.mode)) = some ([.pin .dir false], .waitCmd, .receive) := by
  decide +kernel

theorem test_step_stops :
    fault? (step { withCam [] with arb := { (withCam []).arb with halt := true } }) = some .halted
    ∧ refusal? (step (machine { Config.tp0 with flushMax := 0 } .transmit (envOf [] [] []))) = some .profileRejected := by
  decide +kernel

/-! ## Witnesses: states and operands that meet the hypotheses of each statement, at the ends of their ranges -/

/-- In RECEIVE, with answers of the HOST. -/
def listening (up : List UpAnswer) : State := machine Config.tp0 .receive { envOf [] [] [] with up := up }

/-- In TRANSMIT, with answers of the pins, the clock and the uplink's writes. -/
def faulty (pin clk upWr : List Bool) : State :=
  machine Config.tp0 .transmit { envOf [] [] [] with pin := pin, clk := clk, upWr := upWr }

/-- In TRANSMIT, with faults of the camera's transactions. -/
def camFaulty (rd : List (Option CamReadFault)) (wr : List (Option CamWriteFault)) : State :=
  machine Config.tp0 .transmit { envOf [] [] [] with camRd := rd, camWr := wr }

theorem witness_ChecksumIsTheSumModulo256 : [1, 2].Perm ([2, 1] : List Byte) ∧ ([7, 8] : List Byte) = [7] ++ [8] := by decide

theorem witness_OneByteIsReadFromTheUplink :
    (listening [.byte 0xFF]).arb.mode = .receive ∧ (listening [.byte 0xFF]).env.up = .byte 0xFF :: []
    ∧ (listening [.fatal]).arb.mode = .receive ∧ (listening [.fatal]).env.up = .fatal :: []
    ∧ (listening []).arb.mode = .receive ∧ (listening []).env.up = [] := by decide

theorem witness_UpWriteWritesAll :
    (∀ n ∈ [2, 3, 8, 9], (List.replicate n (0 : Byte)).length ∈ [2, 3, 8, 9])
    ∧ (faulty [] [] [false]).arb.mode = .transmit ∧ (faulty [] [] [false]).env.upWrFails = false
    ∧ (faulty [] [] [true]).arb.mode = .transmit ∧ (faulty [] [] [true]).env.upWrFails = true := by decide

theorem witness_PrimitiveOutsideItsDomainStops :
    (withCam []).arb.mode = .transmit ∧ (listening []).arb.mode = .receive ∧ ([0, 0] : List Byte).length ∈ [2, 3, 8, 9]
    ∧ ([] : List Byte).length ∉ [2, 3, 8, 9] ∧ ([0, 0, 0, 0] : List Byte).length ∉ [2, 3, 8, 9]
    ∧ (0 : Nat) ∉ [1, 4] ∧ (3 : Nat) ∉ [1, 4] ∧ (5 : Nat) ∉ [1, 4]
    ∧ 0 < ({ (listening []).arb with respLen := 1 } : Arbiter).respLen := by decide

theorem witness_CamReadReturnsExactlyN :
    (1 : Nat) ∈ [1, 4] ∧ (4 : Nat) ∈ [1, 4] ∧ (camFaulty [none] []).env.camRdFault = none
    ∧ (camFaulty [some ⟨.zeroLength, 0⟩] []).env.camRdFault = some ⟨.zeroLength, 0⟩ := by decide

theorem witness_CamWriteWritesAll :
    ([0] : List Byte) ≠ [] ∧ (camFaulty [] [none]).env.camWrFault = none
    ∧ (camFaulty [] [some .busError]).env.camWrFault = some .busError := by decide

theorem witness_PinSetDrivesOnePin :
    (faulty [false] [] []).env.pinFails = false ∧ (faulty [true] [] []).env.pinFails = true := by decide

theorem witness_AnalogReadReturnsASample :
    (withAdc Config.tp0 [(1, 1)]).env.adc = .sample Sample.one :: [] ∧ (withAdc Config.tp0 []).env.adc = []
    ∧ ({ envOf [] [] [] with adc := [.fatal] } : Env).adc = .fatal :: [] := by decide +kernel

theorem witness_SleepAndDiagAreEventsOnly :
    (faulty [] [false] []).env.clkFails = false ∧ (faulty [] [true] []).env.clkFails = true := by decide

theorem witness_FatalStopRestoresAndLatches :
    (listening []).arb.mode = .receive
    ∧ (faulty [false] [] []).arb.mode = .transmit ∧ (faulty [false] [] []).env.pinFails = false
    ∧ (faulty [true] [] []).arb.mode = .transmit ∧ (faulty [true] [] []).env.pinFails = true := by decide

theorem witness_PartsOfAScan :
    clear 2 (faulty [false, false, true] [] []).env.pin ∧ clear 2 (faulty [] [false, false, true] []).env.clk
    ∧ (∀ a ∈ (withAdc Config.tp0 [(1, 2)]).env.adc.take 1, a.isSample = true)
    ∧ (faulty [true] [true] []).env.pinFails = true ∧ (faulty [true] [true] []).env.clkFails = true
    ∧ (faulty [false, true] [false, true] []).env.pin = false :: true :: []
    ∧ (faulty [false, true] [false, true] []).env.clk = false :: true :: []
    ∧ { (envOf [] [] []) with adc := [.fatal] }.adc = .fatal :: [] := by unfold clear; decide +kernel

theorem witness_ScanTakesEightSamplesOrStops :
    (machine Config.tp0 .transmit { envOf [] [] fixture with
      pin := List.replicate 18 false ++ [true], clk := List.replicate 23 false ++ [true] }).env.scanCalm
    ∧ ¬ (faulty (List.replicate 17 false ++ [true]) [] []).env.scanCalm := by
  unfold Env.scanCalm clear; decide +kernel

theorem witness_RescaleFloorsAndMasks : sampleValue Sample.zero < 1 ∧ sampleValue Sample.one = 1 := by
  simp [sampleValue, Sample.zero, Sample.one]

/-- A calm scan, and scans whose last pin call, last sleep and last read fail. -/
theorem witness_SignalIsScanThenSelect :
    (withAdc Config.tp0 fixture).env.scanCalm
    ∧ ¬ (faulty (List.replicate 17 false ++ [true]) [] []).env.scanCalm
    ∧ ¬ (faulty [] (List.replicate 22 false ++ [true]) []).env.scanCalm
    ∧ ¬ ({ envOf [] [] (fixture.take 7) with adc := (envOf [] [] (fixture.take 7)).adc ++ [.fatal] } : Env).scanCalm := by
  unfold Env.scanCalm clear; decide +kernel

theorem witness_HeaderSearches_found_on_read_32 :
    (List.replicate 31 (0 : Byte)).length < 32 ∧ (∀ b ∈ List.replicate 31 (0 : Byte), b ≠ Config.tp0.hdr1)
    ∧ (withCam (List.replicate 31 0 ++ [0xC3, 0x55])).env.delivers (List.replicate 31 0 ++ [0xC3]) [0x55]
    ∧ (∀ b ∈ List.replicate 31 (0 : Byte), b ≠ Config.tp0.hdr2)
    ∧ (withCam (List.replicate 31 0 ++ [0x3C])).env.delivers (List.replicate 31 0 ++ [0x3C]) [] := by
  unfold Env.delivers; decide +kernel

theorem witness_HeaderSearches_abort :
    (List.replicate 32 (0xFF : Byte)).length = 32 ∧ (∀ b ∈ List.replicate 32 (0xFF : Byte), b ≠ Config.tp0.hdr1)
    ∧ (∀ b ∈ List.replicate 32 (0xFF : Byte), b ≠ Config.tp0.hdr2)
    ∧ (withCam []).env.delivers (List.replicate 32 0xFF) [] := by
  unfold Env.delivers; decide +kernel

theorem witness_DescriptorBytes :
    (withCam [0x00]).env.delivers [0x00] [] ∧ (withCam []).env.delivers [0xFF] []
    ∧ (withCam []).profile.hasAlgo = true ∧ (machine Config.tp1 .transmit (envOf [] [0x00] [])).profile.hasAlgo = false
    ∧ (machine Config.tp1 .transmit (envOf [] [0x00] [])).env.delivers [0x00] [] := by
  unfold Env.delivers; decide +kernel

/-- A payload of no byte, and one of 255. -/
theorem witness_PayloadIsReassembled :
    (([] : List Byte).length = (withCam []).frm.len.toNat - (withCam []).frm.idx ∧ (withCam []).env.delivers [] [])
    ∧ (let s := { withCam (List.replicate 255 1) with frm := { (withCam []).frm with len := 255 } }
       (List.replicate 255 (1 : Byte)).length = s.frm.len.toNat - s.frm.idx
         ∧ s.env.delivers (List.replicate 255 1) []) := by
  unfold Env.delivers; decide +kernel

theorem witness_ChecksumByteAndTag : (withCam [0xCA]).env.delivers [0xCA] [] := by unfold Env.delivers; decide +kernel

theorem witness_ResultIsTheFrameOrTheAbort :
    ({ (withCam []).frm with res := some (.syncError .h2) } : Framer).res = some (.syncError .h2)
    ∧ ∀ code, (withCam []).frm.res ≠ some (.syncError code) := by
  refine ⟨rfl, fun code => by cases code <;> decide⟩

/-- The three streams: 32 bytes without the first header; the first header on read 32 and 32 bytes without the second; both
headers on read 32 and a frame of 255 payload bytes. -/
theorem witness_FrameDecodeOfEveryStream (old : Framer) :
    (∃ r regs, Decodes Config.tp0 old (List.replicate 32 0xFF) r regs)
    ∧ (∃ r regs, Decodes Config.tp0 old (List.replicate 31 0 ++ [0xC3] ++ List.replicate 32 0) r regs)
    ∧ (∃ r regs, Decodes Config.tp0 old
        (List.replicate 31 0 ++ [0xC3] ++ List.replicate 31 0 ++ [0x3C]
          ++ WireFrame.inner Config.tp0 ⟨0x22, 0x01, List.replicate 255 0, 0x21⟩ ++ [0x21]) r regs) :=
  ⟨⟨_, _, .noHeader1 _ (by decide) (by decide +kernel)⟩,
    ⟨_, _, .noHeader2 _ _ (by decide) (by decide +kernel) (by decide) (by decide +kernel)⟩,
    ⟨_, _, .frame _ _ ⟨0x22, 0x01, List.replicate 255 0, 0x21⟩ (by decide) (by decide +kernel) (by decide)
      (by decide +kernel) (by decide +kernel)⟩⟩

theorem decodes_df0 (old : Framer) : Decodes Config.tp0 old df0
    (.ok (WireFrame.record Config.tp0 ⟨0x22, 0x01, blockB, 0xCA⟩)) (WireFrame.regs Config.tp0 old 1 ⟨0x22, 0x01, blockB, 0xCA⟩) :=
  .frame [] [] ⟨0x22, 0x01, blockB, 0xCA⟩ (by decide) (by decide) (by decide) (by decide) (by decide)

theorem decodes_ok0 (old : Framer) : Decodes Config.tp0 old ok0
    (.ok (WireFrame.record Config.tp0 ⟨0x20, 0x01, [], 0x20⟩)) (WireFrame.regs Config.tp0 old 1 ⟨0x20, 0x01, [], 0x20⟩) :=
  .frame [] [] ⟨0x20, 0x01, [], 0x20⟩ (by decide) (by decide) (by decide) (by decide) (by decide)

/-- A wrapped marker, and a nested frame of nine payload bytes. -/
def marker : WireFrame := ⟨0x21, 0x01, [], 0x21⟩
def nested : WireFrame := ⟨0x99, 0x01, [0xEE, 0x11, 0x01, 0x22, 0x02, 0x33, 0x03, 0x44, 0x04], 0x44⟩

theorem decodes_marker (old : Framer) : Decodes Config.tp0 old [0xC3, 0x3C, 0x21, 0x01, 0x00, 0x21]
    (.ok (marker.record Config.tp0)) (marker.regs Config.tp0 old 1) :=
  .frame [] [] marker (by decide) (by decide) (by decide) (by decide) (by decide)

theorem decodes_nested (old : Framer) : Decodes Config.tp0 old ([0xC3, 0x3C] ++ nested.inner Config.tp0 ++ [0x44])
    (.ok (nested.record Config.tp0)) (nested.regs Config.tp0 old 1) :=
  .frame [] [] nested (by decide) (by decide) (by decide) (by decide) (by decide)

theorem flushes_empty (max : Nat) (h : 0 < max) : Flushes max ([] ++ [emptyChunk]) (.drained 1) :=
  Flushes.drained [] (fun _ hc => absurd hc (List.not_mem_nil)) h

theorem witness_FrameDecodeOfEveryStream_delivered : (withCam df0).env.delivers df0 [] := by
  unfold Env.delivers; decide +kernel

/-- Garbage of 31 and of no byte, with the right and a wrong checksum; 32 bytes of garbage. -/
theorem witness_FrameDecodeProperties :
    (List.replicate 31 (0 : Byte)).length < 32 ∧ (∀ b ∈ List.replicate 31 (0 : Byte), b ≠ Config.tp0.hdr1)
    ∧ blockB.length ≤ 255
    ∧ (withCam (List.replicate 31 0 ++ df0)).env.delivers (List.replicate 31 0 ++ [Config.tp0.hdr1, Config.tp0.hdr2]
        ++ WireFrame.inner Config.tp0 ⟨0x22, 0x01, blockB, 0xCA⟩ ++ [0xCA]) []
    ∧ (0xCA : Byte) = checksum ([Config.tp0.hdr1, Config.tp0.hdr2] ++ WireFrame.inner Config.tp0 ⟨0x22, 0x01, blockB, 0xCA⟩)
    ∧ (0xCB : Byte) ≠ checksum ([Config.tp0.hdr1, Config.tp0.hdr2] ++ WireFrame.inner Config.tp0 ⟨0x22, 0x01, blockB, 0xCB⟩)
    ∧ (List.replicate 32 (0 : Byte)).length = 32 ∧ (∀ b ∈ List.replicate 32 (0 : Byte), b ≠ Config.tp0.hdr1)
    ∧ (withCam (List.replicate 40 0)).env.delivers (List.replicate 32 0) (List.replicate 8 0) := by
  unfold Env.delivers; decide +kernel

/-- A decode whose seventh read faults, in the middle of a frame: the reads before it, the bytes lost, the fault as the
last event. -/
theorem witness_FrameDecodeAlwaysEnds :
    let s := { withCam df0 with env := { (withCam df0).env with camRd := List.replicate 6 none ++ [some ⟨.busError, 1⟩] } }
    s.env.firstFault 6 ⟨.busError, 1⟩
    ∧ after (exec .frameDecode s) (fun t => (t.trace, t.env, t.connected)) =
        (let t := afterFaultedReads 1 6 ⟨.busError, 1⟩ s; some (t.trace, t.env, false))
    ∧ (afterFaultedReads 1 6 ⟨.busError, 1⟩ s).env.camBuf = df0.drop 7 := by
  unfold Env.firstFault; decide +kernel

theorem witness_CameraFrameIsDecoded :
    (Instr.cameraFrame 0x22 (some 0x01) (List.replicate 255 0) 0).wellFormed Config.tp0 = true
    ∧ (Instr.cameraFrame 0x22 none [] 0).wellFormed Config.tp1 = true
    ∧ ∀ x ∈ (withCam []).env.camRd.take 261, x = none := by decide +kernel

/-- Drained at the first chunk and at the last one the bound allows; exhausted at the bound. -/
theorem witness_FlushReadsToAnEmptyChunk :
    Flushes 32 ([] ++ [emptyChunk]) (.drained 1)
    ∧ Flushes 2 ([#v[1, 2, 3, 4]] ++ [emptyChunk]) (.drained 2)
    ∧ Flushes 2 ([#v[1, 2, 3, 4]] ++ [#v[0xFF, 0xFF, 0xFF, 0]]) .exhausted
    ∧ (withCam []).env.deliversChunks ([] ++ [emptyChunk]) []
    ∧ (withCam [1, 2, 3, 4, 0xFF, 0xFF, 0xFF, 0, 9]).env.deliversChunks ([#v[1, 2, 3, 4]] ++ [#v[0xFF, 0xFF, 0xFF, 0]]) [9] :=
  ⟨flushes_empty _ (by decide), Flushes.drained [#v[1, 2, 3, 4]] (List.forall_mem_singleton.2 (by decide)) (by decide),
    Flushes.exhausted _ (List.forall_mem_cons.2 ⟨by decide, List.forall_mem_singleton.2 (by decide)⟩) rfl, by unfold Env.deliversChunks; decide +kernel,
    by unfold Env.deliversChunks; decide +kernel⟩

/-- The least bound; a fault of the first read, and one of the second, with the state it leaves. -/
theorem witness_FlushAlwaysEnds :
    1 ≤ Config.tp0.flushMax ∧ 1 ≤ ({ Config.tp0 with flushMax := 1 } : Profile).flushMax
    ∧ (camFaulty [some ⟨.busError, 2⟩] []).env.firstFault 0 ⟨.busError, 2⟩
    ∧ (camFaulty [none, some ⟨.busError, 2⟩] []).env.firstFault 1 ⟨.busError, 2⟩
    ∧ (let s := { withCam [1, 2, 3, 4, 5, 6, 7] with
         env := { (withCam [1, 2, 3, 4, 5, 6, 7]).env with camRd := [none, some ⟨.busError, 2⟩] } }
       after (exec .flush s) id = some (afterAbsent (afterFaultedReads 4 1 ⟨.busError, 2⟩ { s with
         flu := { chunk := #v[1, 2, 3, 4], n := 1 } }))
       ∧ (afterFaultedReads 4 1 ⟨.busError, 2⟩ s).env.camBuf = [7]) := by
  unfold Env.firstFault; decide +kernel

theorem witness_ChunkRows :
    (Instr.chunkData 0xFF 0xFF 0xFF 0xFE).wellFormed Config.tp0 = true ∧ (Instr.chunkData 0 0 0 0).wellFormed Config.tp0 = true
    ∧ (let s := { withCam [] with flu := { (withCam []).flu with n := 31 } }
       s.flu.n < s.profile.flushMax ∧ after (exec .chunkEmpty s) (fun t => (t.flu.n, t.ret)) = some (32, .flush (.drained 32))
       ∧ after (exec (.chunkData 0 0 0 0) s) (fun t => (t.flu.n, t.ret)) = some (32, .flush .exhausted))
    ∧ (let s := { withCam [] with flu := { (withCam []).flu with n := 32 } }
       s.profile.flushMax ≤ s.flu.n ∧ s.flu.n ≤ s.profile.flushMax
       ∧ after (exec .chunkEmpty s) (fun t => (t.flu, t.ret)) = some (s.flu, .flush .exhausted)
       ∧ after (exec (.chunkData 0 0 0 0) s) (fun t => (t.flu, t.ret)) = some (s.flu, .flush .exhausted)) := by
  decide +kernel

theorem witness_EmittedFormats :
    (withCam []).env.camWrFault = none ∧ Config.tp0.hasAlgsel = true ∧ Config.tp1.hasAlgsel = false
    ∧ (Instr.signalReport 7 true 0x7F (some 0x06)).wellFormed Config.tp0 = true
    ∧ (Instr.signalReport 0 false 0 none).wellFormed Config.tp1 = true
    ∧ (Instr.blockReport (Vector.replicate 8 0xFF) (some 0xF8)).wellFormed Config.tp0 = true
    ∧ (Instr.blockReport (Vector.replicate 8 0) none).wellFormed Config.tp1 = true := by decide +kernel

/-- The ok code, another one, and an abort; with and without the select exchange. -/
theorem witness_KnockAndAlgsel (old : Framer) :
    (camFaulty [] []).env.camWrFault = none ∧ (∃ r regs, Decodes Config.tp0 old ok0 r regs) ∧ (withCam ok0).env.delivers ok0 []
    ∧ (∃ f, (FrameResult.ok (WireFrame.record Config.tp0 ⟨0x20, 0x01, [], 0x20⟩)) = .ok f ∧ f.command = Config.tp0.cmdOk)
    ∧ ¬ (∃ f, (FrameResult.ok (marker.record Config.tp0)) = .ok f ∧ f.command = Config.tp0.cmdOk)
    ∧ ¬ (∃ f, (FrameResult.syncError .h1) = .ok f ∧ f.command = Config.tp0.cmdOk)
    ∧ Config.tp0.hasAlgsel = true ∧ Config.tp1.hasAlgsel = false := by
  refine ⟨rfl, ⟨_, _, decodes_ok0 old⟩, ?_, ⟨_, rfl, by decide⟩, ?_, ?_, rfl, rfl⟩
  · unfold Env.delivers; decide +kernel
  · rintro ⟨f, hf, hc⟩; cases hf; revert hc; decide
  · rintro ⟨f, hf, _⟩; cases hf

theorem witness_HandshakeSetsConnected :
    after (exec .knock (withCam [])) (·.ret) = some (.bool false)
    ∧ after (exec .knock (machine Config.tp1 .transmit (envOf [] ok1 []))) (·.ret) = some (.bool true)
    ∧ Config.tp1.hasAlgsel = false
    ∧ after (exec .knock (withCam (ok0 ++ ok0))) (·.ret) = some (.bool true)
    ∧ (after (exec .knock (withCam (ok0 ++ ok0))) fun t => after (exec .algsel t) (·.ret)) = some (some (.bool true))
    ∧ (after (exec .knock (withCam ok0)) fun t => after (exec .algsel t) (·.ret)) = some (some (.bool false)) := by
  decide +kernel

theorem witness_RequestBlocksReturnsTheBlock (old : Framer) :
    ((withCam df0).env.camWrFault = none ∧ (∃ f regs, Decodes Config.tp0 old df0 (.ok f) regs
      ∧ f.command ≠ Config.tp0.cmdWrapped ∧ f.command = Config.tp0.cmdDirect ∧ covers f Config.tp0.offDirect = true
      ∧ ∃ b, blockAt f.payload Config.tp0.offDirect = some b) ∧ (withCam df0).env.delivers df0 [])
    ∧ (∃ f regs g regs2, Decodes Config.tp0 old [0xC3, 0x3C, 0x21, 0x01, 0x00, 0x21] (.ok f) regs
      ∧ f.command = Config.tp0.cmdWrapped
      ∧ Decodes Config.tp0 regs ([0xC3, 0x3C] ++ nested.inner Config.tp0 ++ [0x44]) (.ok g) regs2
      ∧ covers g Config.tp0.offWrapped = true ∧ ∃ b, blockAt g.payload Config.tp0.offWrapped = some b)
    ∧ (withCam ([0xC3, 0x3C, 0x21, 0x01, 0x00, 0x21] ++ ([0xC3, 0x3C] ++ nested.inner Config.tp0 ++ [0x44]))).env.delivers
        ([0xC3, 0x3C, 0x21, 0x01, 0x00, 0x21] ++ ([0xC3, 0x3C] ++ nested.inner Config.tp0 ++ [0x44])) [] := by
  refine ⟨⟨rfl, ⟨_, _, decodes_df0 old, by decide, by decide, by decide, ⟨_, rfl⟩⟩, ?_⟩,
    ⟨_, _, _, _, decodes_marker old, by decide, decodes_nested _, by decide, ⟨_, rfl⟩⟩, ?_⟩ <;>
  · unfold Env.delivers; decide +kernel

/-- An abort, an unknown command, a short direct frame, and a wrapped marker with nothing behind it, each with the flush of
an empty channel. -/
theorem witness_RequestBlocksFlushesTheRest (old : Framer) :
    Flushes Config.tp0.flushMax ([] ++ [emptyChunk]) (.drained 1)
    ∧ (∃ regs, Decodes Config.tp0 old (List.replicate 32 0xFF) (.syncError .h1) regs)
    ∧ (withCam []).env.delivers (List.replicate 32 0xFF) []
    ∧ (afterReads (List.replicate 32 0xFF) [] (withCam [])).env.deliversChunks ([] ++ [emptyChunk]) []
    ∧ (∀ f, (FrameResult.ok (WireFrame.record Config.tp0 ⟨0x20, 0x01, [], 0x20⟩)) = .ok f →
        f.command ≠ Config.tp0.cmdWrapped ∧ (f.command = Config.tp0.cmdDirect → covers f Config.tp0.offDirect = false))
    ∧ covers (WireFrame.record Config.tp0 ⟨0x22, 0x01, List.replicate 7 0, 0x29⟩) Config.tp0.offDirect = false
    ∧ (WireFrame.record Config.tp0 ⟨0x22, 0x01, List.replicate 7 0, 0x29⟩).command = Config.tp0.cmdDirect
    ∧ (∃ regs1 regs, Decodes Config.tp0 old [0xC3, 0x3C, 0x21, 0x01, 0x00, 0x21] (.ok (marker.record Config.tp0)) regs1
      ∧ Decodes Config.tp0 regs1 (List.replicate 32 0xFF) (.syncError .h1) regs)
    ∧ (withCam [0xC3, 0x3C, 0x21, 0x01, 0x00, 0x21]).env.delivers
        ([0xC3, 0x3C, 0x21, 0x01, 0x00, 0x21] ++ List.replicate 32 0xFF) [] := by
  refine ⟨flushes_empty _ (by decide), ⟨_, .noHeader1 _ (by decide) (by decide +kernel)⟩, ?_, ?_, ?_, by decide +kernel,
    by decide +kernel, ⟨_, _, decodes_marker old, .noHeader1 _ (by decide) (by decide +kernel)⟩, ?_⟩
  · unfold Env.delivers; decide +kernel
  · unfold Env.deliversChunks; decide +kernel
  · intro f hf; cases hf; decide
  · unfold Env.delivers; decide +kernel

/-- Offsets that just fit an eight-byte payload, and that just do not fit a seven-byte one. -/
theorem witness_ExtractCopiesTheFields :
    (Instr.extract ⟨0x22, none, 8, blockB, 0, true⟩ ⟨0, 2, 4, 6⟩).wellFormed Config.tp0 = true
    ∧ blockB[(0 : Nat)]? = some 0x10 ∧ blockB[(6 : Nat) + 1]? = some 0x00
    ∧ (List.replicate 7 (0 : Byte)).length ≤ 6 + 1 := by decide

theorem witness_ResponseRows (old : Framer) :
    (let s := { withCam [] with ccp := { (withCam []).ccp with ph := .knockRx } }
     s.ccp.ph = .knockRx ∧ s.profile.hasAlgsel = true)
    ∧ (withCam []).ccp.ph ≠ .knockRx ∧ Config.tp1.hasAlgsel = false
    ∧ (∃ g regs, Decodes Config.tp0 old ([0xC3, 0x3C] ++ nested.inner Config.tp0 ++ [0x44]) (.ok g) regs
      ∧ covers g Config.tp0.offWrapped = true ∧ ∃ b, blockAt g.payload Config.tp0.offWrapped = some b)
    ∧ (∃ f b, f = WireFrame.record Config.tp0 ⟨0x22, 0x01, blockB, 0xCA⟩ ∧ covers f Config.tp0.offDirect = true
      ∧ blockAt f.payload Config.tp0.offDirect = some b)
    ∧ (withCam []).frm.res = none ∧ covers (frameOf (withCam [])) Config.tp0.offDirect = false
    ∧ (let s := { withCam [] with frm := { (withCam []).frm with len := 8 } }
       s.frm.res = none ∧ covers (frameOf s) s.profile.offDirect = true
       ∧ blockAt (frameOf s).payload s.profile.offDirect = some (Vector.replicate 8 0))
    ∧ Flushes Config.tp0.flushMax ([] ++ [emptyChunk]) (.drained 1) ∧ (withCam []).env.deliversChunks ([] ++ [emptyChunk]) []
    ∧ covers (marker.record Config.tp0) Config.tp0.offDirect = false
    ∧ (∃ regs, Decodes Config.tp0 old (List.replicate 32 0xFF) (.syncError .h1) regs) := by
  refine ⟨⟨rfl, rfl⟩, by decide, rfl, ⟨_, _, decodes_nested old, by decide, ⟨_, rfl⟩⟩, ⟨_, _, rfl, by decide, rfl⟩,
    rfl, by decide, ⟨rfl, by decide, by decide +kernel⟩, flushes_empty _ (by decide), ?_, by decide, ⟨_, .noHeader1 _ (by decide) (by decide +kernel)⟩⟩
  unfold Env.deliversChunks; decide +kernel

theorem witness_CameraDataStepByStep :
    (withCam df0).connected = true
    ∧ (after (exec .requestBlocks { withCam df0 with ccp := { (withCam df0).ccp with blkValid := false } }) (·.ret))
        = some (.block (some #v[0x10, 0x00, 0x20, 0x00, 0x30, 0x00, 0x40, 0x00]))
    ∧ (after (exec .requestBlocks { camFaulty [some ⟨.noResponse, 0⟩] [] with ccp := { (withCam []).ccp with blkValid := false } }) (·.ret))
        = some zeros9
    ∧ (camFaulty [some ⟨.noResponse, 0⟩] []).connected = true
    ∧ (absent (withCam [])).connected = false
    ∧ after (exec .handshake (absent (withCam []))) (·.connected) = some false
    ∧ after (exec .handshake (absent (withCam (ok0 ++ ok0)))) (·.connected) = some true := by decide +kernel

theorem witness_DirectionIsSetWithTheMode :
    (faulty [false] [] []).env.pinFails = false ∧ (faulty [true] [] []).env.pinFails = true := by decide

theorem witness_DispatchOnTheWholeByte :
    (withCam []).arb.cmd = 0x63 ∧ ({ (withCam []).arb with cmd := 0x6C } : Arbiter).cmd = 0x6C
    ∧ ({ (withCam []).arb with cmd := 0x68 } : Arbiter).cmd = 0x68
    ∧ (0x4C : Byte) ≠ 0x6C ∧ (0x4C : Byte) ≠ 0x68 ∧ (0x4C : Byte) ≠ 0x63 := by decide

theorem witness_WriteRespAndTxSettle :
    (withCam []).arb.respLen = 0 ∧ ({ (withCam []).arb with respLen := 9 } : Arbiter).respLen ≠ 0
    ∧ ({ (withCam []).arb with respLen := 1 } : Arbiter).respLen ≠ 0
    ∧ (faulty [] [false] [false]).arb.mode = .transmit ∧ (faulty [] [false] [false]).env.upWrFails = false
    ∧ (faulty [] [true] [true]).env.upWrFails = true ∧ (faulty [] [false] []).env.clkFails = false
    ∧ (faulty [] [true] []).env.clkFails = true := by decide

/-- A state in each phase of the arbiter, at a point of the call tree. -/
def inPhase (ph : ArbPh) (cmd : Byte) (mode : Mode) : State :=
  { machine Config.tp0 mode (envOf [0x63] [] []) with
    arb := ⟨ph, mode, cmd, Vector.replicate 9 0, respSize Config.tp0 cmd, false, .uplink⟩ }

theorem witness_CycleCompletes :
    (inPhase .settle 0x63 .transmit).arb.halt = false
    ∧ (let s := { inPhase .settle 0x63 .transmit with env := { envOf [0x6C] [] fixture with clk := [false, true] } }
       after (runParts loopParts s) (fun t => (t.arb.haltCause, t.trace.length)) = some (.clock, 10))
    ∧ (let s := { inPhase .settle 0x63 .transmit with env := envOf [] [] [] }
       after (runParts loopParts s) (fun t => (t.arb.ph, t.trace.length)) = some (.waitCmd, 1))
    ∧ ({ envOf [0x6C] [] fixture with
        pin := List.replicate 20 false ++ [true]
        clk := List.replicate 24 false ++ [true]
        upWr := [false, true]
        camRd := [some ⟨.busError, 3⟩] } : Env).cycleCalm
    ∧ (envOf [0x6C] [] fixture).up = .byte 0x6C :: [] := by
  unfold Env.cycleCalm clear; decide +kernel

theorem witness_StepRunsTheDecodedCall :
    (withCam []).arb.halt = false ∧ (withCam []).profile.wf = true
    ∧ decode Config.tp0 .sn [0xDE, 0xAD, 0x01] = .ok .sentinelH1
    ∧ decode Config.tp0 .sn [0xDE, 0xAD, 0x03] = .reject .notSentinel := by decide

/-- The failing settle of a cycle, with a restoring `PinSet` that will fail too; and the state in which that one is due. -/
def failing : State := { inPhase .settle 0x63 .transmit with env := { envOf [] [] [] with clk := [true], pin := [true] } }

def stopped : State := { failing with stopping := some .clock }

theorem witness_StepFollowsTheLoop :
    (∀ ph mode, (inPhase ph 0x63 mode).call = none ∧ (inPhase ph 0x63 mode).profile.wf = true
      ∧ (inPhase ph 0x63 mode).arb.halt = false ∧ (inPhase ph 0x63 mode).stopping = none)
    ∧ (Running failing ∧ failing.arb.halt = false ∧ failing.stopping = none ∧ failing.arb.mode = .transmit)
    ∧ after (exec .txSettle failing) (·.arb.halt) = some true
    ∧ after (exec .setRx { failing with arb := { failing.arb with ph := .setRx, mode := .receive } }) (·.arb.halt) = some true
    ∧ stopped.stopping = some .clock ∧ stopped.arb.halt = false
    ∧ after (exec .setRx (inPhase .setRx 0x63 .transmit)) (·.arb.halt) = some false
    ∧ after (exec .waitCmd (inPhase .waitCmd 0x63 .receive)) (·.arb.halt) = some false
    ∧ (inPhase .waitCmd 0x63 .receive).env.up ≠ [] ∧ (listening []).env.up = []
    ∧ after (exec .setTx (inPhase .setTx 0x63 .receive)) (·.arb.halt) = some false
    ∧ after (exec .dispatch (inPhase .dispatch 0x78 .transmit)) (fun v => (v.arb.halt, v.arb.respLen)) = some (false, 0)
    ∧ after (exec .dispatch (inPhase .dispatch 0x63 .transmit)) (fun v => (v.arb.halt, v.arb.respLen)) = some (false, 9)
    ∧ after (exec .dispatch { inPhase .dispatch 0x6C .transmit with env := failing.env }) (·.arb.halt) = some true
    ∧ after (exec (.unrecognized 0x78) (inPhase .dispatch 0x78 .transmit)) (·.arb.halt) = some false
    ∧ after (exec .writeResp (inPhase .write 0x63 .transmit)) (·.arb.halt) = some false
    ∧ after (exec .txSettle (inPhase .settle 0x63 .transmit)) (·.arb.halt) = some false := by
  refine ⟨fun ph mode => ⟨rfl, rfl, rfl, rfl⟩, ⟨⟨rfl, rfl⟩, rfl, rfl, rfl⟩, ?_⟩
  decide +kernel

theorem witness_HaltedOrRejected :
    ({ (withCam []).arb with halt := true } : Arbiter).halt = true ∧ (withCam []).arb.halt = false
    ∧ ({ Config.tp0 with flushMax := 0 } : Profile).wf = false := by decide

/-- Mid-run states that meet the invariant: the settle of a scan, the last payload byte of a block response, a wait. -/
def scanning : State :=
  { inPhase .dispatch 0x68 .transmit with
    scn := { (withCam []).scn with ph := .settleClk, k := 7, freq := true }
    env := { (inPhase .dispatch 0x68 .transmit).env with muxPulses := 8 } }

def receiving : State :=
  { inPhase .dispatch 0x63 .transmit with
    ccp := { (withCam []).ccp with ph := .reqRx }
    frm := { (withCam []).frm with ph := .pay, len := 255, idx := 254 } }

theorem witness_InvIsKept :
    Running scanning ∧ Inv scanning ∧ Running receiving ∧ Inv receiving
    ∧ Running (inPhase .waitCmd 0 .receive) ∧ Inv (inPhase .waitCmd 0 .receive) := by
  refine ⟨⟨rfl, rfl⟩, ?_, ⟨rfl, rfl⟩, ?_, ⟨rfl, rfl⟩, ?_⟩
  · constructor <;> simp [scanning, inPhase, machine, inTransmit, inReceive, handlerPoint, scanPoint, uplinkCmd, Config.tp0,
      Config.cmdSigLo, Config.cmdSigHi, withCam]
  · constructor <;> simp [receiving, inPhase, machine, inTransmit, inReceive, handlerPoint, cameraPoint, framePoint, uplinkCmd,
      Config.tp0, Config.cmdSigLo, Config.cmdSigHi, Config.cmdCam, withCam]
  · constructor <;> simp [inPhase, machine, inReceive, Config.tp0]

theorem witness_OneCallPerStep :
    (listening []).env.up = []
    ∧ after (step { inPhase .waitCmd 0 .receive with env := envOf [] [] [] }) (·.trace) = some []
    ∧ after (step scanning) (·.trace) = some [.sleep 5]
    ∧ after (step failing) (fun t => (t.arb.halt, t.stopping, t.trace)) = some (false, some .clock, [.fatal .clock])
    ∧ after (step stopped) (fun t => (t.arb.halt, t.arb.haltCause, t.stopping, t.trace)) = some (true, .clock, none, [.fatal .gpio])
    ∧ Running failing ∧ Inv failing ∧ Running stopped ∧ Inv stopped := by
  refine ⟨rfl, by decide +kernel, by decide +kernel, by decide +kernel, by decide +kernel, ⟨rfl, rfl⟩, ?_, ⟨rfl, rfl⟩, ?_⟩ <;>
  · constructor <;> simp [stopped, failing, inPhase, machine, inTransmit, Config.tp0]

theorem witness_HalfDuplex :
    after (step (inPhase .waitCmd 0 .receive)) (·.trace) = some [.upRead 0x63]
    ∧ after (step (inPhase .write 0x63 .transmit)) (·.trace) = some [.upWrite (List.replicate 9 0)]
    ∧ after (step (inPhase .setTx 0 .receive)) (·.arb.mode) = some .transmit
    ∧ after (step (inPhase .setRx 0 .transmit)) (·.arb.mode) = some .receive
    ∧ after (step stopped) (·.arb.mode) = some .receive
    ∧ Running (inPhase .write 0x63 .transmit) ∧ Inv (inPhase .write 0x63 .transmit) := by
  refine ⟨by decide +kernel, by decide +kernel, by decide +kernel, by decide +kernel, by decide +kernel, ⟨rfl, rfl⟩, ?_⟩
  constructor <;> simp [inPhase, machine, inTransmit, uplinkCmd, Config.tp0, Config.cmdSigLo, Config.cmdSigHi, Config.cmdCam]

theorem witness_EveryStepIsTaken : scanning.arb.halt = false ∧ receiving.arb.halt = false := ⟨rfl, rfl⟩

theorem witness_steps_are_taken :
    after (step scanning) (·.scn.ph) = some .settleAdc ∧ after (step receiving) (·.frm.ph) = some .ck
    ∧ after (step (inPhase .waitCmd 0 .receive)) (·.arb.ph) = some .setTx := by decide +kernel

theorem witness_TraceInvIsKept :
    TraceInv { inPhase .waitCmd 0 .receive with trace := [.pin .dir false] } := by
  constructor <;> simp [inPhase, machine, traceOk, lastDir, readsSinceTx, Config.tp0]

/-- The last byte of a handshake's answer, and of one that fails: `CONNECTED` changes. -/
def answering (connected : Bool) (b : Byte) : State :=
  { inPhase .dispatch 0x63 .transmit with
    connected := connected
    ccp := { (withCam []).ccp with ph := if connected then .reqRx else .algRx }
    frm := { (withCam []).frm with ph := .ck, cmd := 0x20, acc := 0x20 }
    env := { (envOf [] [b] []) with camRd := if connected then [some ⟨.noResponse, 0⟩] else [] } }

theorem witness_WhatChangesConnected :
    after (step (answering false 0x20)) (fun t => (t.connected, t.ccp.ph)) = some (true, .reqTx)
    ∧ after (step (answering true 0x20)) (fun t => (t.connected, t.arb.ph)) = some (false, .write)
    ∧ Running (answering false 0x20) ∧ Inv (answering false 0x20) ∧ Running (answering true 0x20)
    ∧ Inv (answering true 0x20) := by
  refine ⟨by decide +kernel, by decide +kernel, ⟨rfl, rfl⟩, ?_, ⟨rfl, rfl⟩, ?_⟩ <;>
  · constructor <;> simp [answering, inPhase, machine, inTransmit, handlerPoint, cameraPoint, framePoint, uplinkCmd, Config.tp0,
      Config.cmdSigLo, Config.cmdSigHi, Config.cmdCam, withCam]

theorem witness_StepsRefineTheCycle :
    Running (inPhase .setRx 0 .transmit) ∧ (inPhase .setRx 0 .transmit).arb.halt = false
    ∧ (inPhase .setRx 0 .transmit).stopping = none ∧ (inPhase .setRx 0 .transmit).arb.ph = .setRx := ⟨⟨rfl, rfl⟩, rfl, rfl, rfl⟩

theorem witness_DecodeOfEncode :
    (Instr.cameraFrame 0xFF none (List.replicate 255 0xFF) 0).wellFormed Config.tp1 = true
    ∧ (encode Config.tp1 (.cameraFrame 0xFF none (List.replicate 255 0xFF) 0)).isSome = true
    ∧ (decode Config.tp1 .br (List.replicate 8 0)).toOption.isSome = true := by decide +kernel

end Sys2Proof.Tests
end

section
/-! PROOFS. The family 00_scope.md: a step runs what is called from outside, a running engine always has a step, and a step of
the sequencer is one primitive call. The two last statements rest on one fact, `loopCall_oneCall`: at a point of the call tree
the sequencer makes one call, and what follows it makes none and cannot stop. -/

namespace Sys2Proof.Machine

/-! ## A call from outside -/

theorem step_of_call_ok {s : State} {c : Call} {i : Instr} (hh : s.arb.halt = false) (hw : s.profile.wf = true)
    (hc : s.call = some c) (hd : fetchCall s.profile c = .ok i) : step s = exec i (s.setCall none) := by
  simp [step, hh, hw, hc, hd]

theorem step_of_call_reject {s : State} {c : Call} {why : Reject} (hh : s.arb.halt = false) (hw : s.profile.wf = true)
    (hc : s.call = some c) (hd : fetchCall s.profile c = .reject why) : step s = .refused (.undecodable why) := by
  simp [step, hh, hw, hc, hd]

/-- Settles O46: each form of call is one of the two outcomes of the fetch. -/
theorem stepRunsTheDecodedCall : Obligations.StepRunsTheDecodedCall := by
  intro s hh hw
  refine ⟨fun fmt bs i hd => ?_, fun i => ?_, fun fmt bs why hd => ?_, fun _ _ => rfl⟩
  · exact step_of_call_ok (c := .word fmt bs) hh hw rfl hd
  · exact step_of_call_ok (c := .op i) hh hw rfl rfl
  · exact step_of_call_reject (c := .word fmt bs) hh hw rfl hd

/-! ## Register updates between two calls -/

/-- `t` is `s` after register updates alone: no event, no halt, no `FATAL_STOP`. -/
def updated (s t : State) : Prop := t.trace = s.trace ∧ t.stopping = s.stopping ∧ t.arb.halt = s.arb.halt

/-- What follows a primitive call up to the next one: it makes no call, and it does not stop. -/
def Eff.Quiet (s : State) : Eff Unit → Prop
  | .ok _ t => updated s t
  | .camFault _ _ | .fatal _ _ | .blocked _ | .stop _ => False

/-- Register updates may come before what is quiet. -/
theorem Eff.Quiet.of_updated {s t : State} {m : Eff Unit} (hm : m.Quiet t) (h : updated s t) : m.Quiet s := by
  obtain ⟨htr, hst, hha⟩ := h
  cases m with
  | ok _ u =>
    obtain ⟨gtr, gst, gha⟩ := hm
    exact ⟨gtr.trans htr, gst.trans hst, gha.trans hha⟩
  | camFault | fatal | blocked | stop => exact hm

/-- A block that the offsets cover is copied; no byte outside the payload is read (45_camera_protocol.md R201, R202). -/
theorem extract_of_covers {f : Frame} {off : Offsets} (s : State) (hlen : f.payload.length = f.length.toNat)
    (hc : covers f off = true) :
    ∃ b, extract f off s = .ok b (s.setCcp { s.ccp with blk := b, blkValid := true }) := by
  obtain ⟨b, hb⟩ := blockAt_isSome f.payload off (by rw [hlen]; exact hc)
  exact ⟨b, by simp [extract, hb]⟩

theorem blockReturn_quiet {f : Frame} (off : Offsets) (s : State) (hlen : f.payload.length = f.length.toNat) :
    (blockReturn f off s).Quiet s := by
  unfold blockReturn
  split
  · rename_i hc
    obtain ⟨b, hb⟩ := extract_of_covers s hlen hc
    rw [hb]
    exact ⟨rfl, rfl, rfl⟩
  · exact ⟨rfl, rfl, rfl⟩

/-- A frame that a decode returns has the payload it announces (10_state.md R32). -/
theorem resultOf_ok_length {s : State} {f : Frame} (h : resultOf s = .ok f) : f.payload.length = f.length.toNat := by
  unfold resultOf at h
  split at h
  · cases h
  · cases h; exact firstBytes_payload_length _ _

/-- The protocol waits for a frame: a decode is under way (45_camera_protocol.md R204). -/
def CcpPh.awaitsFrame : CcpPh → Prop
  | .knockRx | .algRx | .reqRx | .nestRx => True
  | .idle | .knockTx | .algTx | .reqTx | .flush | .done => False

theorem handshakeStepOk_updated (s : State) : updated s (handshakeStepOk s) := by
  unfold handshakeStepOk; split <;> exact ⟨rfl, rfl, rfl⟩

theorem protocolReturn_quiet {r : FrameResult} {s : State} (hp : s.ccp.ph.awaitsFrame)
    (hr : ∀ f, r = .ok f → f.payload.length = f.length.toNat) : (protocolReturn r s).Quiet s := by
  have handshake : (if matchesCode r s.profile.cmdOk then Eff.ok () (handshakeStepOk s)
      else .ok () (absentReturn s)).Quiet s := by
    split
    · exact handshakeStepOk_updated s
    · exact ⟨rfl, rfl, rfl⟩
  unfold protocolReturn
  cases hph : s.ccp.ph with
  | knockRx | algRx => exact handshake
  | reqRx =>
    cases r with
    | syncError code => exact ⟨rfl, rfl, rfl⟩
    | ok f =>
      cases hc : responseClass s.profile f.command with
      | direct => simpa [hc] using blockReturn_quiet _ s (hr f rfl)
      | wrapped | unknown => simp [hc, Eff.Quiet, updated, frameStart, enterFlush, flushStart, setCcpPh]
  | nestRx =>
    cases r with
    | syncError code => exact ⟨rfl, rfl, rfl⟩
    | ok g => exact blockReturn_quiet _ s (hr g rfl)
  | idle | knockTx | algTx | reqTx | flush | done => exact absurd hp (by simp [hph, CcpPh.awaitsFrame])

theorem decodeReturn_quiet {s : State} (hp : s.ccp.ph.awaitsFrame) : (decodeReturn s).Quiet s := by
  unfold decodeReturn
  split
  · exact protocolReturn_quiet (s := result s) hp fun f h => resultOf_ok_length h
  · exact ⟨rfl, rfl, rfl⟩

/-! ## One primitive call -/

/-- `t` has one event more than `s`, and neither a halt nor a `FATAL_STOP` has come between. -/
def calledOnce (s t : State) : Prop :=
  (∃ e, t.trace = e :: s.trace) ∧ t.stopping = s.stopping ∧ t.arb.halt = s.arb.halt

/-- One primitive call from `s` (00_scope.md R16): it completes or fails with one event, or waits for the HOST; it does not
stop. A failing one has its cause as the event, and no arbiter register is changed by it. -/
def Eff.OneCall {α : Type} (s : State) : Eff α → Prop
  | .ok _ t | .camFault _ t => calledOnce s t
  | .fatal c t => t.trace = .fatal c :: s.trace ∧ t.stopping = s.stopping ∧ t.arb = s.arb
  | .blocked t => s.arb.ph = .waitCmd ∧ s.env.up = [] ∧ t = s
  | .stop _ => False

theorem Eff.Quiet.oneCall {s t : State} {m : Eff Unit} (hm : m.Quiet t) (h : calledOnce s t) : m.OneCall s := by
  obtain ⟨⟨e, he⟩, hs, hh⟩ := h
  cases m with
  | ok _ u =>
    obtain ⟨htr, hst, hha⟩ := hm
    exact ⟨⟨e, htr.trans he⟩, hst.trans hs, hha.trans hh⟩
  | camFault | fatal | blocked | stop => exact hm.elim

/-- The rule for sequences: one call, and then no other. -/
theorem Eff.OneCall.andThen {α : Type} {s : State} {m : Eff α} {f : α → State → Eff Unit} (hm : m.OneCall s)
    (hf : ∀ a t, (f a t).Quiet t) : (m.andThen f).OneCall s := by
  cases m with
  | ok a t => exact (hf a t).oneCall hm
  | camFault | fatal | blocked | stop => exact hm

theorem pinSet_oneCall (pin : Pin) (l : Bool) (s : State) : (pinSet pin l s).OneCall s := by
  rcases pinSet_cases pin l s with h | h <;> rw [h]
  · exact ⟨⟨_, rfl⟩, rfl, rfl⟩
  · exact ⟨rfl, rfl, rfl⟩

theorem sleep_oneCall (d : Nat) (s : State) : (sleep d s).OneCall s := by
  rcases sleep_cases d s with h | h <;> rw [h]
  · exact ⟨⟨_, rfl⟩, rfl, rfl⟩
  · exact ⟨rfl, rfl, rfl⟩

theorem analogRead_oneCall (s : State) : (analogRead s).OneCall s := by
  rcases analogRead_cases s with ⟨v, adc, n, h⟩ | ⟨adc, h⟩ <;> rw [h]
  · exact ⟨⟨_, rfl⟩, rfl, rfl⟩
  · exact ⟨rfl, rfl, rfl⟩

theorem camWrite_oneCall (bs : List Byte) (s : State) : (camWrite bs s).OneCall s := by
  rcases camWrite_cases bs s with h | ⟨k, h⟩ <;> rw [h] <;> exact ⟨⟨_, rfl⟩, rfl, rfl⟩

theorem camRead_oneCall (n : Nat) (s : State) : (camRead n s).OneCall s := by
  rcases camRead_cases n s with h | ⟨f, h⟩ <;> rw [h] <;> exact ⟨⟨_, rfl⟩, rfl, rfl⟩

/-- In RECEIVE `UpRead` is allowed (20_memory.md R62); it waits while the HOST is silent. -/
theorem upRead_oneCall {s : State} (hph : s.arb.ph = .waitCmd) (hm : s.arb.mode = .receive) : (upRead s).OneCall s := by
  rcases upRead_cases hm with ⟨b, rest, -, h⟩ | ⟨hup, h⟩ | ⟨rest, -, h⟩ <;> rw [h]
  · exact ⟨⟨_, rfl⟩, rfl, rfl⟩
  · exact ⟨hph, hup, rfl⟩
  · exact ⟨rfl, rfl, rfl⟩

/-- In TRANSMIT `UpWrite` is allowed (20_memory.md R63). -/
theorem upWrite_oneCall (bs : List Byte) {s : State} (hm : s.arb.mode = .transmit) : (upWrite bs s).OneCall s := by
  cases h : s.env.upWrFails
  · rw [upWrite_ok hm h]; exact ⟨⟨_, rfl⟩, rfl, rfl⟩
  · rw [upWrite_fatal hm h]; exact ⟨rfl, rfl, rfl⟩

/-- A read of one byte and what follows it, which may rely on the protocol's registers being those before the read. -/
theorem readThen_oneCall {s : State} {f : Byte → State → Eff Unit} (hf : ∀ b t, t.ccp = s.ccp → (f b t).Quiet t) :
    ((nextByte s).andThen f).OneCall s := by
  rcases nextByte_cases s with ⟨b, h⟩ | ⟨k, h⟩
  · rw [h, Eff.andThen_ok]
    refine (hf b _ ?_).oneCall ⟨⟨.camRead 1 [b], rfl⟩, rfl, rfl⟩
    rfl
  · rw [h]
    exact ⟨⟨.camFault k.kind, rfl⟩, rfl, rfl⟩

/-! ## The call due in a handler -/

theorem muxResetAssert_oneCall (s : State) : (muxResetAssert s).OneCall s :=
  (pinSet_oneCall _ _ s).andThen fun _ _ => ⟨rfl, rfl, rfl⟩

theorem muxResetRelease_oneCall (s : State) : (muxResetRelease s).OneCall s :=
  (pinSet_oneCall _ _ s).andThen fun _ _ => ⟨rfl, rfl, rfl⟩

theorem muxAdvanceAssert_oneCall (s : State) : (muxAdvanceAssert s).OneCall s :=
  (pinSet_oneCall _ _ s).andThen fun _ _ => ⟨rfl, rfl, rfl⟩

theorem muxAdvanceRelease_oneCall (s : State) : (muxAdvanceRelease s).OneCall s :=
  (pinSet_oneCall _ _ s).andThen fun _ _ => ⟨rfl, rfl, rfl⟩

theorem sample_oneCall (s : State) : (sample s).OneCall s :=
  (analogRead_oneCall s).andThen fun _ _ => ⟨rfl, rfl, rfl⟩

theorem stepScan_oneCall {s : State} (h : scanPoint s) : (stepScan s).OneCall s := by
  obtain ⟨-, hpt⟩ := h
  unfold stepScan
  cases hph : s.scn.ph with
  | reset =>
    dsimp only
    split
    · exact (muxResetRelease_oneCall s).andThen fun _ _ => ⟨rfl, rfl, rfl⟩
    · exact muxResetAssert_oneCall s
  | adv =>
    dsimp only
    split
    · exact (muxAdvanceRelease_oneCall s).andThen fun _ _ => ⟨rfl, rfl, rfl⟩
    · exact muxAdvanceAssert_oneCall s
  | settleClk | settleAdc | interch => exact (sleep_oneCall _ s).andThen fun _ _ => ⟨rfl, rfl, rfl⟩
  | sample =>
    refine (sample_oneCall s).andThen fun _ t => ?_
    split <;> exact ⟨rfl, rfl, rfl⟩
  | idle | done => simp [hph] at hpt

theorem takeH1_updated (b : Byte) (s : State) : updated s (takeH1 b s) ∧ (takeH1 b s).ccp = s.ccp := by
  unfold takeH1
  split
  · exact ⟨⟨rfl, rfl, rfl⟩, rfl⟩
  · split <;> exact ⟨⟨rfl, rfl, rfl⟩, rfl⟩

theorem takeH2_updated (b : Byte) (s : State) : updated s (takeH2 b s) ∧ (takeH2 b s).ccp = s.ccp := by
  unfold takeH2
  split
  · exact ⟨⟨rfl, rfl, rfl⟩, rfl⟩
  · split <;> exact ⟨⟨rfl, rfl, rfl⟩, rfl⟩

/-- One byte read, an update of the framer's registers, and the return of a decode that ends with it. -/
theorem readReturn_oneCall {s : State} (f : Byte → State → State) (hp : s.ccp.ph.awaitsFrame)
    (hf : ∀ b t, updated t (f b t) ∧ (f b t).ccp = t.ccp) :
    ((nextByte s).andThen fun b t => decodeReturn (f b t)).OneCall s :=
  readThen_oneCall fun b t ht => by
    obtain ⟨hu, hccp⟩ := hf b t
    exact (decodeReturn_quiet (by rw [hccp, ht]; exact hp)).of_updated hu

theorem stepFrame_oneCall {s : State} (hp : s.ccp.ph.awaitsFrame) (h : framePoint s) : (stepFrame s).OneCall s := by
  obtain ⟨-, hpt⟩ := h
  unfold stepFrame
  cases hph : s.frm.ph with
  | h1 => simpa [stepH1, Eff.andThen_assoc] using readReturn_oneCall takeH1 hp takeH1_updated
  | h2 => simpa [stepH2, Eff.andThen_assoc] using readReturn_oneCall takeH2 hp takeH2_updated
  | cmd | len | pay => exact readThen_oneCall fun _ _ _ => ⟨rfl, rfl, rfl⟩
  | algo =>
    have ha : s.profile.hasAlgo = true := by simpa [hph] using hpt
    simpa [readAlgo, ha] using readThen_oneCall (f := fun b t => .ok () (takeAlgo b t)) fun _ _ _ => ⟨rfl, rfl, rfl⟩
  | ck =>
    simpa [readCk, Eff.andThen_assoc] using readReturn_oneCall
      (fun b t => tagDegraded (ckValidate (t.setFrm { t.frm with ckrx := b }))) hp fun _ _ => ⟨⟨rfl, rfl, rfl⟩, rfl⟩
  | idle | done => simp [hph] at hpt

/-- Below the bound a pass of the flush is one transaction (44_flusher.md R181). -/
theorem stepFlush_oneCall {s : State} (h : flushReadsOn s) {f : Option FlushResult → State → Eff Unit}
    (hf : ∀ r t, (f r t).Quiet t) : ((stepFlush s).andThen f).OneCall s := by
  simp only [stepFlush, h, if_true, Eff.andThen_assoc, Eff.andThen_ok]
  exact (camRead_oneCall _ s).andThen fun c t => (hf _ (storeChunk c t)).of_updated ⟨rfl, rfl, rfl⟩

theorem stepCamera_oneCall {s : State} (h : cameraPoint s) : (stepCamera s).OneCall s := by
  unfold cameraPoint at h
  unfold stepCamera
  cases hph : s.ccp.ph with
  | knockTx | algTx | reqTx => exact (camWrite_oneCall _ s).andThen fun _ _ => ⟨rfl, rfl, rfl⟩
  | knockRx | algRx | reqRx | nestRx =>
    have hf : framePoint s := by simp only [hph] at h; tauto
    exact stepFrame_oneCall (by rw [hph]; trivial) hf
  | flush =>
    have hn : flushReadsOn s := by simp only [hph] at h; exact h.2
    refine stepFlush_oneCall hn fun r t => ?_
    cases r <;> exact ⟨rfl, rfl, rfl⟩
  | idle | done => simp [hph] at h

/-- A fault that the catch of R204 takes is the one call all the same. -/
theorem caughtCamera_oneCall {s : State} {m : Eff Unit} (h : m.OneCall s) : (caughtCamera m).OneCall s := by
  cases m with
  | ok | camFault | fatal | blocked | stop => exact h

theorem stepHandler_oneCall {s : State} (h : handlerPoint s) : (stepHandler s).OneCall s := by
  unfold handlerPoint at h
  unfold stepHandler
  cases hc : uplinkCmd s.arb.cmd with
  | sigLo | sigHi => exact stepScan_oneCall (by simpa [hc] using h)
  | camData => exact caughtCamera_oneCall (stepCamera_oneCall (by simpa [hc] using h))
  | unrecognized => exact ⟨⟨.diag _, rfl⟩, rfl, rfl⟩

/-! ## The call due in the loop -/

theorem dispatchEnter_updated (s : State) : updated s (dispatchEnter s) := by
  unfold dispatchEnter
  split <;> exact ⟨rfl, rfl, rfl⟩

/-- Every command but an unrecognized one has a response (46_arbiter.md R230, R234). -/
theorem respSize_pos {P : Profile} {cmd : Byte} (h : uplinkCmd cmd ≠ .unrecognized) : 0 < respSize P cmd := by
  unfold respSize
  cases hc : uplinkCmd cmd with
  | sigLo | sigHi | camData => dsimp only; split <;> decide
  | unrecognized => exact absurd hc h

/-- At a point of the call tree the sequencer makes one primitive call, and none that the bus or the call tree forbids. -/
theorem loopCall_oneCall {s : State} (hi : Inv s) (hh : s.arb.halt = false) : (loopCall s).OneCall s := by
  unfold loopCall
  cases hph : s.arb.ph with
  | setRx =>
    have hrx : (setRx s).OneCall s := (pinSet_oneCall _ _ s).andThen fun _ _ => ⟨rfl, rfl, rfl⟩
    exact hrx.andThen fun _ _ => ⟨rfl, rfl, rfl⟩
  | waitCmd =>
    obtain ⟨hmode, -⟩ := hi.wait_receives hph
    have hwait : (waitCmd s).OneCall s := (upRead_oneCall hph hmode).andThen fun _ _ => ⟨rfl, rfl, rfl⟩
    exact hwait.andThen fun _ _ => ⟨rfl, rfl, rfl⟩
  | setTx =>
    have htx : (setTx s).OneCall s := (pinSet_oneCall _ _ s).andThen fun _ _ => ⟨rfl, rfl, rfl⟩
    exact htx.andThen fun _ t => dispatchEnter_updated (setArbPh .dispatch t)
  | dispatch =>
    obtain ⟨-, hpt⟩ := hi.dispatch_transmits hph
    exact stepHandler_oneCall hpt
  | write =>
    obtain ⟨⟨hmode, -⟩, hlen, hcmd⟩ := hi.write_transmits hph
    have hpos : 0 < s.arb.respLen := by rw [hlen]; exact respSize_pos hcmd
    have hwr : (writeResp s).OneCall s := by simpa [writeResp, hpos] using upWrite_oneCall _ hmode
    exact hwr.andThen fun _ _ => ⟨rfl, rfl, rfl⟩
  | settle => exact Eff.OneCall.andThen (m := txSettle s) (sleep_oneCall _ s) fun _ _ => ⟨rfl, rfl, rfl⟩
  | halted => simp [hi.halt_iff.2 hph] at hh

/-! ## The step -/

/-- The outcome of one call is a next state: the wait, one event more, or `FATAL_STOP` entered after the failing call. -/
theorem Eff.OneCall.closeStep {s : State} {m : Eff Unit} (h : m.OneCall s) : ∃ t, m.closeStep = .next t ∧
    ((s.arb.ph = .waitCmd ∧ s.env.up = [] ∧ t = s)
    ∨ calledOnce s t
    ∨ ∃ c u, t = enterFatal c u ∧ u.trace = .fatal c :: s.trace ∧ u.stopping = s.stopping ∧ u.arb = s.arb) := by
  cases m with
  | ok _ t => exact ⟨t, rfl, .inr (.inl h)⟩
  | camFault _ t => exact ⟨_, rfl, .inr (.inl h)⟩
  | fatal c u => exact ⟨_, rfl, .inr (.inr ⟨c, u, rfl, h⟩)⟩
  | blocked t => exact ⟨t, rfl, .inl h⟩
  | stop => exact h.elim

theorem step_of_running {s : State} (hr : Running s) (hh : s.arb.halt = false) : step s = (callDue s).closeStep := by
  obtain ⟨hcall, hw⟩ := hr
  simp [step, hh, hw, hcall]

/-- Settles O52: the rest of a `FATAL_STOP` under way is always made, and a call of the loop does not stop. -/
theorem everyStepIsTaken : Obligations.EveryStepIsTaken := by
  intro s hr hi hh
  rw [step_of_running hr hh]
  cases hs : s.stopping with
  | some c => exact ⟨leaveFatal c s, by simp [hs]⟩
  | none =>
    obtain ⟨t, ht, -⟩ := (loopCall_oneCall hi hh).closeStep
    exact ⟨t, by rw [callDue_of_running hs, ht]⟩

/-- The rest of a `FATAL_STOP` under way is one call, the restoring `PinSet` (46_arbiter.md R232). -/
theorem leaveFatal_trace {s : State} (c : FatalCause) (hm : s.arb.mode = .transmit) :
    ∃ e, (leaveFatal c s).trace = e :: s.trace ∧ (e = .pin .dir (!s.profile.dirTxLevel) ∨ e = .fatal .gpio) := by
  rw [leaveFatal, takeFatal_of_transmit c (by simpa using hm)]
  unfold restoreDir
  split
  · exact ⟨_, rfl, .inr rfl⟩
  · exact ⟨_, rfl, .inl rfl⟩

/-- Settles O54: with a `FATAL_STOP` under way the call is the restoring `PinSet`; otherwise it is the loop's, and a `Fatal` of
it halts in RECEIVE and gets `FATAL_STOP` under way in TRANSMIT. -/
theorem oneCallPerStep : Obligations.OneCallPerStep := by
  intro s t ⟨hcall, _⟩ hi hstep
  obtain ⟨hh, -, ⟨c, hs, rfl⟩ | ⟨hs, hclose⟩⟩ := step_cases hcall hstep
  · obtain ⟨hmode, -⟩ := hi.stopping_transmits (by simp [hs])
    obtain ⟨e, he, hev⟩ := leaveFatal_trace c hmode
    refine .inr ⟨e, he, fun c' hc' => ?_, by simp [hs], by simp [hs]⟩
    obtain rfl : c = c' := by simpa [hs] using hc'
    exact ⟨by simp [leaveFatal], rfl, rfl, hev⟩
  · obtain ⟨t', ht', hcases⟩ := (loopCall_oneCall hi hh).closeStep
    obtain rfl : t' = t := by simpa [ht'] using hclose
    obtain hwait | ⟨⟨e, he⟩, hst, hha⟩ | ⟨c, u, rfl, htr, hst, harb⟩ := hcases
    · exact .inl hwait
    · exact .inr ⟨e, he, by simp [hs], by simp [hha, hh], by simp [hst, hs]⟩
    · refine .inr ⟨.fatal c, ?_⟩
      cases hm : s.arb.mode with
      | receive =>
        rw [enterFatal_of_receive c (by rw [harb, hm]), takeFatal_of_receive c (by rw [harb, hm])]
        exact ⟨htr, by simp [hs], by simp, by simp [hst, hs]⟩
      | transmit =>
        rw [enterFatal_of_transmit c (by rw [harb, hm])]
        exact ⟨htr, by simp [hs], by simp [harb, hh], by simp [harb]⟩

end Sys2Proof.Machine
end

section
/-! PROOFS. The family 10_state.md, first part: what reset leaves, and where the engine stops. -/

namespace Sys2Proof.Machine

/-! ## Reset and the stops of a step -/

theorem coveredBy_255_iff (off : Offsets) :
    off.coveredBy 255 = true ↔ off.x + 1 ≤ 254 ∧ off.y + 1 ≤ 254 ∧ off.w + 1 ≤ 254 ∧ off.h + 1 ≤ 254 := by
  simp only [Offsets.coveredBy, Bool.and_eq_true, decide_eq_true_eq]
  omega

/-- The checks of 00_scope.md R10, one by one. -/
theorem profile_wf_iff (P : Profile) : P.wf = true ↔
    (∀ off ∈ [P.offDirect, P.offWrapped],
      off.x + 1 ≤ 254 ∧ off.y + 1 ≤ 254 ∧ off.w + 1 ≤ 254 ∧ off.h + 1 ≤ 254)
    ∧ P.txKnock ≠ [] ∧ P.txReqblk ≠ [] ∧ (P.hasAlgsel = true → P.txAlgsel ≠ [])
    ∧ 1 ≤ P.flushMax ∧ (P.signalScale = 127 ∨ P.signalScale = 128) ∧ P.cksumScope = .full := by
  cases h : P.hasAlgsel <;> simp [Profile.wf, coveredBy_255_iff, and_assoc, h]

/-- Settles O48: the two tests that a step begins with, and the profile's check spelt out. -/
theorem haltedOrRejected : Obligations.HaltedOrRejected := by
  intro s
  refine ⟨fun hh => ?_, fun hh hw => ?_, profile_wf_iff s.profile⟩
  · simp [step, hh]
  · simp [step, hh, hw]

/-- Settles O49: `State.resetWith` writes each of these fields. -/
theorem resetState : Obligations.ResetState :=
  fun _ _ => ⟨rfl, rfl, rfl, rfl, rfl, rfl, rfl, rfl, rfl⟩

/-- At the top of the loop the position asks for nothing but that the engine has not halted. -/
theorem inv_of_setRx {s : State} (hph : s.arb.ph = .setRx) (hh : s.arb.halt = false)
    (hst : s.stopping ≠ none → s.arb.mode = .transmit) : Inv s := by
  constructor <;> simp_all

theorem traceInv_resetWith (P : Profile) (env : Env) : TraceInv (State.resetWith P env) where
  ok := rfl
  at_set_rx _ := rfl
  at_wait := nofun
  at_set_tx := nofun
  at_transmit := nofun
  at_settle := nofun

/-- Settles O50: reset leaves the engine at the top of the loop, with an empty trace. -/
theorem resetMeetsTheInvariants : Obligations.ResetMeetsTheInvariants :=
  fun P env => ⟨inv_of_setRx rfl rfl (absurd rfl), traceInv_resetWith P env⟩

end Sys2Proof.Machine
end

section
/-! PROOFS. What one call of the loop leaves alone, and where it leaves the position: every step keeps the invariant of the
position. -/

namespace Sys2Proof.Machine

/-! ## What a call leaves alone -/

/-- No call of the loop changes the profile, the call from outside, or the cause of a `FATAL_STOP` under way. -/
structure SameContext (s t : State) : Prop where
  profile : t.profile = s.profile
  call : t.call = s.call
  stopping : t.stopping = s.stopping

theorem SameContext.trans {s t u : State} (h : SameContext s t) (g : SameContext t u) : SameContext s u :=
  ⟨g.profile.trans h.profile, g.call.trans h.call, g.stopping.trans h.stopping⟩

/-- No call of a handler changes the arbiter's registers or the direction pin either. -/
structure SameArbiter (s t : State) : Prop extends SameContext s t where
  arb : t.arb = s.arb
  dir : t.pins.dir = s.pins.dir

theorem SameArbiter.refl (s : State) : SameArbiter s s := ⟨⟨rfl, rfl, rfl⟩, rfl, rfl⟩

theorem SameArbiter.symm {s t : State} (h : SameArbiter s t) : SameArbiter t s :=
  ⟨⟨h.profile.symm, h.call.symm, h.stopping.symm⟩, h.arb.symm, h.dir.symm⟩

theorem SameArbiter.trans {s t u : State} (h : SameArbiter s t) (g : SameArbiter t u) : SameArbiter s u :=
  ⟨h.toSameContext.trans g.toSameContext, g.arb.trans h.arb, g.dir.trans h.dir⟩

/-- Register updates that follow a call: what they leave alone is left alone by definition. -/
theorem SameArbiter.update {s t u : State} (h : SameArbiter s t) (hprofile : u.profile = t.profile := by rfl)
    (hcall : u.call = t.call := by rfl) (hstopping : u.stopping = t.stopping := by rfl)
    (harb : u.arb = t.arb := by rfl) (hdir : u.pins.dir = t.pins.dir := by rfl) : SameArbiter s u :=
  h.trans ⟨⟨hprofile, hcall, hstopping⟩, harb, hdir⟩

/-- The environment has answered a call, and no register has been written yet. -/
def Answered (s t : State) : Prop :=
  t = { s with env := t.env, trace := t.trace } ∧ t.env.muxPulses = s.env.muxPulses

theorem Answered.exists_eq {s t : State} (h : Answered s t) :
    ∃ e tr, e.muxPulses = s.env.muxPulses ∧ t = { s with env := e, trace := tr } := ⟨_, _, h.2, h.1⟩

theorem Answered.sameArbiter {s t : State} (h : Answered s t) : SameArbiter s t := by
  obtain ⟨e, tr, -, rfl⟩ := h.exists_eq
  exact ⟨⟨rfl, rfl, rfl⟩, rfl, rfl⟩

/-- The position does not depend on what the environment will answer. -/
theorem Answered.handlerPoint_iff {s t : State} (h : Answered s t) : handlerPoint t ↔ handlerPoint s := by
  obtain ⟨e, tr, he, rfl⟩ := h.exists_eq
  simp [handlerPoint, scanPoint, cameraPoint, framePoint, he]

/-- One primitive call and the register updates after it, from `s`: `q` where it returns, and nothing but the environment and
the trace changed where it fails. Only a call inside the `try` of R204 may fault (`inTry`). -/
def Eff.CallFrom {α : Type} (inTry : Prop) (s : State) (q : α → State → Prop) : Eff α → Prop
  | .ok a t => q a t
  | .camFault _ t => inTry ∧ SameArbiter s t
  | .fatal _ t => Answered s t
  | .blocked t => t = s
  | .stop _ => False

section
variable {α β : Type} {inTry : Prop} {s : State} {q : α → State → Prop}

theorem Eff.CallFrom.andThen {r : β → State → Prop} {m : Eff α} {f : α → State → Eff β} (hm : m.CallFrom inTry s q)
    (hf : ∀ a t, q a t → (f a t).CallFrom inTry s r) : (m.andThen f).CallFrom inTry s r := by
  cases m with
  | ok a t => exact hf a t hm
  | camFault | fatal | blocked | stop => exact hm

theorem Eff.CallFrom.mono {r : α → State → Prop} {m : Eff α} (hm : m.CallFrom inTry s q)
    (hqr : ∀ a t, q a t → r a t) : m.CallFrom inTry s r := by
  cases m with
  | ok a t => exact hqr a t hm
  | camFault | fatal | blocked | stop => exact hm

end

/-! ## The primitives -/

section
variable (inTry : Prop) (s : State)

theorem pinSet_call (pin : Pin) (l : Bool) :
    (pinSet pin l s).CallFrom inTry s fun _ => Answered (s.setPins (s.pins.drive pin l)) := by
  rcases pinSet_cases pin l s with h | h <;> rw [h] <;> exact ⟨rfl, rfl⟩

theorem sleep_call (d : Nat) : (sleep d s).CallFrom inTry s fun _ => Answered s := by
  rcases sleep_cases d s with h | h <;> rw [h] <;> exact ⟨rfl, rfl⟩

theorem analogRead_call : (analogRead s).CallFrom inTry s fun _ t => ∃ n, Answered (s.setFresh n) t := by
  rcases analogRead_cases s with ⟨v, adc, n, h⟩ | ⟨adc, h⟩ <;> rw [h]
  · exact ⟨n, rfl, rfl⟩
  · exact ⟨rfl, rfl⟩

theorem camWrite_call (bs : List Byte) : (camWrite bs s).CallFrom True s fun _ => Answered s := by
  rcases camWrite_cases bs s with h | ⟨k, h⟩ <;> rw [h]
  · exact ⟨rfl, rfl⟩
  · exact ⟨trivial, Answered.sameArbiter ⟨rfl, rfl⟩⟩

theorem camRead_call (n : Nat) : (camRead n s).CallFrom True s fun _ => Answered s := by
  rcases camRead_cases n s with h | ⟨f, h⟩ <;> rw [h]
  · exact ⟨rfl, rfl⟩
  · exact ⟨trivial, Answered.sameArbiter ⟨rfl, rfl⟩⟩

theorem nextByte_call : (nextByte s).CallFrom True s fun _ => Answered s :=
  (camRead_call s 1).andThen fun _ _ h => h

theorem upRead_call (hm : s.arb.mode = .receive) : (upRead s).CallFrom inTry s fun _ => Answered s := by
  rcases upRead_cases hm with ⟨b, rest, -, h⟩ | ⟨-, h⟩ | ⟨rest, -, h⟩ <;> rw [h]
  · exact ⟨rfl, rfl⟩
  · rfl
  · exact ⟨rfl, rfl⟩

theorem upWrite_call (bs : List Byte) (hm : s.arb.mode = .transmit) :
    (upWrite bs s).CallFrom inTry s fun _ => Answered s := by
  cases h : s.env.upWrFails
  · rw [upWrite_ok hm h]; exact ⟨rfl, rfl⟩
  · rw [upWrite_fatal hm h]; exact ⟨rfl, rfl⟩

end

/-! ## The parts of the loop -/

section
variable (inTry : Prop) {s : State}

theorem setRx_call : (setRx s).CallFrom inTry s fun _ t =>
    SameContext s t ∧ t.arb = { s.arb with mode := .receive } ∧ inReceive t :=
  (pinSet_call inTry s _ _).andThen fun _ _ h => by
    obtain ⟨_, _, -, rfl⟩ := h.exists_eq; exact ⟨⟨rfl, rfl, rfl⟩, rfl, rfl, rfl⟩

theorem waitCmd_call (hm : s.arb.mode = .receive) : (waitCmd s).CallFrom inTry s fun _ t =>
    SameContext s t ∧ (∃ b, t.arb = { s.arb with cmd := b }) ∧ t.pins.dir = s.pins.dir :=
  (upRead_call inTry s hm).andThen fun _ _ h => by
    obtain ⟨_, _, -, rfl⟩ := h.exists_eq; exact ⟨⟨rfl, rfl, rfl⟩, ⟨_, rfl⟩, rfl⟩

theorem setTx_call : (setTx s).CallFrom inTry s fun _ t =>
    SameContext s t ∧ t.arb = { s.arb with mode := .transmit } ∧ inTransmit t :=
  (pinSet_call inTry s _ _).andThen fun _ _ h => by
    obtain ⟨_, _, -, rfl⟩ := h.exists_eq; exact ⟨⟨rfl, rfl, rfl⟩, rfl, rfl, rfl⟩

theorem writeResp_call (hm : s.arb.mode = .transmit) :
    (writeResp s).CallFrom inTry s fun _ => SameArbiter s := by
  unfold writeResp
  split
  · exact (upWrite_call inTry s _ hm).mono fun _ _ h => h.sameArbiter
  · exact .refl s

theorem txSettle_call : (txSettle s).CallFrom inTry s fun _ => SameArbiter s :=
  (sleep_call inTry s _).mono fun _ _ h => h.sameArbiter

end

/-! ## A handler's call -/

/-- The handler has returned a response of the size that the command and the profile fix (46_arbiter.md R225, R230). -/
def HandlerReturned (s t : State) : Prop :=
  ∃ bs u, SameArbiter s u ∧ bs.length = respSize s.profile s.arb.cmd ∧ t = handlerReturn bs u

/-- A handler's call has left the handler at the point `p`, or has ended it. -/
def HandlerWent (p : State → Prop) (s t : State) : Prop := (SameArbiter s t ∧ p t) ∨ HandlerReturned s t

theorem respSize_of_camData {P : Profile} {cmd : Byte} (h : uplinkCmd cmd = .camData) :
    respSize P cmd = if P.blockReportCk then 9 else 8 := by simp [respSize, h]

theorem respSize_of_scan {P : Profile} {cmd : Byte} (h : uplinkCmd cmd = .sigLo ∨ uplinkCmd cmd = .sigHi) :
    respSize P cmd = if P.signalReportCk then 3 else 2 := by rcases h with h | h <;> simp [respSize, h]

/-! ### The scanner -/

/-- One half of a pulse has been made, after which the multiplexer counts `n` pulses (41_scanner.md R132, R133; logs 15, 23). -/
def Pulsed (half : Bool) (n : Nat) (s t : State) : Prop :=
  SameArbiter s t ∧ t.scn = { s.scn with half := half } ∧ t.env.muxPulses = n

section
variable (inTry : Prop) (s : State)

/-- Each half of a pulse is one call of a multiplexer pin. -/
theorem pulseHalf_call (pin : Pin) (hpin : pin ≠ .dir) (l half : Bool) (f : Nat → Nat) :
    ((pinSet pin l s).andThen fun _ t => .ok () (setMuxPulses (f t.env.muxPulses) (setHalf half t))).CallFrom inTry s
      fun _ => Pulsed half (f s.env.muxPulses) s :=
  (pinSet_call inTry s pin l).andThen fun _ _ h => by
    obtain ⟨e, tr, he, rfl⟩ := h.exists_eq
    refine ⟨(SameArbiter.refl s).update (hdir := ?_), rfl, congrArg f he⟩
    cases pin with
    | dir => exact absurd rfl hpin
    | muxReset | muxAdv => rfl

theorem muxResetAssert_call : (muxResetAssert s).CallFrom inTry s fun _ => Pulsed true s.env.muxPulses s :=
  pulseHalf_call inTry s .muxReset nofun _ true id

theorem muxResetRelease_call : (muxResetRelease s).CallFrom inTry s fun _ => Pulsed false 0 s :=
  pulseHalf_call inTry s .muxReset nofun _ false fun _ => 0

theorem muxAdvanceAssert_call : (muxAdvanceAssert s).CallFrom inTry s fun _ => Pulsed true s.env.muxPulses s :=
  pulseHalf_call inTry s .muxAdv nofun _ true id

theorem muxAdvanceRelease_call : (muxAdvanceRelease s).CallFrom inTry s fun _ => Pulsed false (s.env.muxPulses + 1) s :=
  pulseHalf_call inTry s .muxAdv nofun _ false (· + 1)

theorem sample_call : (sample s).CallFrom inTry s fun _ t =>
    SameArbiter s t ∧ (∃ v, t.scn = { s.scn with s := v }) ∧ t.env.muxPulses = s.env.muxPulses :=
  (analogRead_call inTry s).andThen fun _ _ ⟨_, h⟩ => by
    obtain ⟨e, tr, he, rfl⟩ := h.exists_eq; exact ⟨(SameArbiter.refl s).update, ⟨_, rfl⟩, he⟩

end

/-- The registers after the sample of channel `K` (41_scanner.md R131, 42_selector.md R146): the next channel's delay, or the
report. -/
def sampled (s : State) : State :=
  if s.scn.k = 7 then
    handlerReturn (signalReportBytes s.profile (selectRegs (setScnPh .done s)).scn.idxmax
      (selectRegs (setScnPh .done s)).scn.mag s.scn.freq) (selectRegs (setScnPh .done s))
  else setScnPh .interch (setK (s.scn.k + 1) s)

theorem stepScan_sample {s : State} (h : s.scn.ph = .sample) :
    stepScan s = (sample s).andThen fun _ t => .ok () (sampled t) := by
  simp only [stepScan, h]
  congr 1
  funext _ t
  unfold sampled
  split <;> rfl

/-- A scan's sleep, after which the scan is in the phase `ph`. -/
theorem scanSleep_call {s : State} (d : Nat) (ph : ScnPh) (hpt : scanPoint (setScnPh ph s)) :
    ((sleep d s).andThen fun _ t => .ok () (setScnPh ph t)).CallFrom False s fun _ => HandlerWent scanPoint s :=
  (sleep_call False s d).andThen fun _ _ h => by
    obtain ⟨e, tr, he, rfl⟩ := h.exists_eq
    refine .inl ⟨(SameArbiter.refl s).update, ?_⟩
    simpa [scanPoint, setScnPh, State.setScn, he] using hpt

theorem sampled_went {s t : State} (hcmd : uplinkCmd s.arb.cmd = .sigLo ∨ uplinkCmd s.arb.cmd = .sigHi)
    (hkeep : SameArbiter s t) (hfreq : t.scn.freq = true ↔ uplinkCmd t.arb.cmd = .sigHi) (hhalf : t.scn.half = false)
    (hmux : t.env.muxPulses = t.scn.k.val + 1) : HandlerWent scanPoint s (sampled t) := by
  unfold sampled
  split
  · refine .inr ⟨_, selectRegs (setScnPh .done t), hkeep.update, ?_, rfl⟩
    rw [signalReportBytes_length, respSize_of_scan hcmd, hkeep.profile]
  · rename_i hk
    refine .inl ⟨hkeep.update, hfreq, hhalf, ?_⟩
    have hk7 : t.scn.k.val ≠ 7 := fun h => hk (Fin.ext h)
    simp [setScnPh, setK, hmux, Fin.val_add]
    omega

theorem stepScan_call {s : State} (hcmd : uplinkCmd s.arb.cmd = .sigLo ∨ uplinkCmd s.arb.cmd = .sigHi) (h : scanPoint s) :
    (stepScan s).CallFrom False s fun _ => HandlerWent scanPoint s := by
  obtain ⟨hfreq, hpt⟩ := h
  cases hph : s.scn.ph with
  | reset =>
    simp only [stepScan, hph]
    split
    · refine (muxResetRelease_call False s).andThen fun _ t ⟨hkeep, hscn, hmux⟩ => ?_
      refine .inl ⟨hkeep.update, ?_⟩
      simp [scanPoint, setScnPh, setK, hscn, hkeep.arb, hmux, hfreq]
    · refine (muxResetAssert_call False s).mono fun _ t ⟨hkeep, hscn, hmux⟩ => .inl ⟨hkeep, ?_⟩
      simp [scanPoint, hscn, hkeep.arb, hph, hfreq]
  | adv =>
    simp only [hph] at hpt
    simp only [stepScan, hph]
    split
    · refine (muxAdvanceRelease_call False s).andThen fun _ t ⟨hkeep, hscn, hmux⟩ => ?_
      refine .inl ⟨hkeep.update, ?_⟩
      simp [scanPoint, setScnPh, hscn, hkeep.arb, hmux, hpt, hfreq]
    · refine (muxAdvanceAssert_call False s).mono fun _ t ⟨hkeep, hscn, hmux⟩ => .inl ⟨hkeep, ?_⟩
      simp [scanPoint, hscn, hkeep.arb, hph, hmux, hpt, hfreq]
  | settleClk | settleAdc =>
    simp only [hph] at hpt
    simp only [stepScan, hph]
    exact scanSleep_call _ _ ⟨hfreq, hpt⟩
  | interch =>
    simp only [hph] at hpt
    simp only [stepScan, hph]
    exact scanSleep_call _ _ ⟨hfreq, hpt.2⟩
  | sample =>
    simp only [hph] at hpt
    rw [stepScan_sample hph]
    refine (sample_call False s).andThen fun _ t ⟨hkeep, ⟨_, hscn⟩, hmux⟩ => ?_
    exact sampled_went hcmd hkeep (by simp [hscn, hkeep.arb, hfreq]) (by simp [hscn, hpt]) (by simp [hscn, hmux, hpt])
  | idle | done => simp [hph] at hpt

/-! ### The framer -/

/-- What the byte of a phase does (43_framer.md R152 to R161). -/
def takeByte (ph : FrmPh) (b : Byte) (s : State) : State :=
  match ph with
  | .h1 => takeH1 b s
  | .h2 => takeH2 b s
  | .cmd => takeCmd b s
  | .algo => takeAlgo b s
  | .len => takeLen b s
  | .pay => takePayload b s
  | .ck => tagDegraded (ckValidate (s.setFrm { s.frm with ckrx := b }))
  | .idle | .done => s

@[simp] theorem takeCmd_ph (b : Byte) (s : State) :
    (takeCmd b s).frm.ph = if s.profile.hasAlgo then .algo else .len := rfl
@[simp] theorem takeAlgo_ph (b : Byte) (s : State) : (takeAlgo b s).frm.ph = .len := rfl
@[simp] theorem takeLen_ph (b : Byte) (s : State) : (takeLen b s).frm.ph = if b = 0 then .ck else .pay := rfl
@[simp] theorem takeLen_idx (b : Byte) (s : State) : (takeLen b s).frm.idx = 0 := rfl
@[simp] theorem takeLen_len (b : Byte) (s : State) : (takeLen b s).frm.len = b := rfl
@[simp] theorem takePayload_ph (b : Byte) (s : State) :
    (takePayload b s).frm.ph = if s.frm.idx + 1 < s.frm.len.toNat then s.frm.ph else .ck := rfl
@[simp] theorem takePayload_idx (b : Byte) (s : State) : (takePayload b s).frm.idx = s.frm.idx + 1 := rfl
@[simp] theorem takePayload_len (b : Byte) (s : State) : (takePayload b s).frm.len = s.frm.len := rfl

/-- The payload is being read, or is complete (43_framer.md R160). -/
def payloadPoint (s : State) : Prop :=
  (s.frm.idx < s.frm.len.toNat ∧ s.frm.ph = .pay) ∨ (¬ s.frm.idx < s.frm.len.toNat ∧ s.frm.ph = .ck)

theorem takeLen_payloadPoint (b : Byte) (s : State) : payloadPoint (takeLen b s) := by
  by_cases hb : b = 0
  · exact .inr ⟨by simp [hb], by rw [takeLen_ph, if_pos hb]⟩
  · refine .inl ⟨?_, by rw [takeLen_ph, if_neg hb]⟩
    rw [takeLen_idx, takeLen_len]
    exact Nat.pos_of_ne_zero fun h => hb (BitVec.eq_of_toNat_eq h)

theorem takePayload_payloadPoint (b : Byte) {s : State} (hph : s.frm.ph = .pay) : payloadPoint (takePayload b s) := by
  unfold payloadPoint
  rw [takePayload_ph, takePayload_idx, takePayload_len, hph]
  split <;> simp_all

theorem framePoint_of_payloadPoint {s : State} (hres : s.frm.res = none) (h : payloadPoint s) : framePoint s := by
  obtain ⟨hlt, hph⟩ | ⟨-, hph⟩ := h
  · exact ⟨hres, by simpa only [hph] using hlt⟩
  · exact ⟨hres, by simp only [hph]⟩

/-- A search goes on to the next phase, ends in an abort, or counts one attempt more, the budget not being used up
(43_framer.md R152, R154). -/
def Searched (next : FrmPh) (s t : State) : Prop :=
  (t.frm.ph = next ∧ (next = .h2 → t.frm.att = 0) ∧ t.frm.res = s.frm.res)
  ∨ t.frm.ph = .done
  ∨ (t.frm.ph = s.frm.ph ∧ t.frm.att = s.frm.att + 1 ∧ t.frm.att ≠ Config.syncBudget ∧ t.frm.res = s.frm.res)

theorem takeH1_searched (b : Byte) (s : State) : Searched .h2 s (takeH1 b s) := by
  unfold takeH1
  split
  · exact .inl ⟨rfl, fun _ => rfl, rfl⟩
  · split
    · exact .inr (.inl rfl)
    · exact .inr (.inr ⟨rfl, rfl, by assumption, rfl⟩)

theorem takeH2_searched (b : Byte) (s : State) : Searched .cmd s (takeH2 b s) := by
  unfold takeH2
  split
  · exact .inl ⟨rfl, nofun, rfl⟩
  · split
    · exact .inr (.inl rfl)
    · exact .inr (.inr ⟨rfl, rfl, by assumption, rfl⟩)

/-- In the phase a byte is read; the algorithm byte only where the profile has it (43_framer.md R158). -/
def readDue (s : State) : Prop :=
  match s.frm.ph with
  | .h1 | .h2 | .cmd | .len | .pay | .ck => True
  | .algo => s.profile.hasAlgo = true
  | .idle | .done => False

theorem framePoint.readDue {s : State} (h : framePoint s) : readDue s := by
  obtain ⟨-, hpt⟩ := h
  unfold Machine.readDue
  cases hph : s.frm.ph <;> simp_all

theorem decodeReturn_of_not_done {s : State} (h : s.frm.ph ≠ .done) : decodeReturn s = .ok () s := by
  simp [decodeReturn, h]

theorem decodeReturn_of_done {s : State} (h : s.frm.ph = .done) :
    decodeReturn s = protocolReturn (resultOf s) (result s) := by
  simp [decodeReturn, h, returnResult]

/-- What follows a read may rely on the registers being those before it. -/
theorem nextByte_congr {α : Type} {s : State} {f g : Byte → State → Eff α} (h : ∀ b t, t.frm = s.frm → f b t = g b t) :
    (nextByte s).andThen f = (nextByte s).andThen g := by
  rcases nextByte_cases s with ⟨b, hb⟩ | ⟨k, hb⟩ <;> rw [hb]
  · exact h _ _ rfl
  · rfl

/-- Each phase of the framer is one read, the update its byte makes, and the return of a decode that has ended. -/
theorem stepFrame_eq {s : State} (h : readDue s) :
    stepFrame s = (nextByte s).andThen fun b t => decodeReturn (takeByte s.frm.ph b t) := by
  unfold readDue at h
  unfold stepFrame
  cases hph : s.frm.ph with
  | h1 => simp only [stepH1, Eff.andThen_assoc, Eff.andThen_ok, takeByte]
  | h2 => simp only [stepH2, Eff.andThen_assoc, Eff.andThen_ok, takeByte]
  | ck => simp only [readCk, Eff.andThen_assoc, Eff.andThen_ok, takeByte]
  | cmd =>
    refine nextByte_congr fun b t _ => (decodeReturn_of_not_done ?_).symm
    rw [takeCmd_ph]
    split <;> simp
  | algo =>
    simp only [hph] at h
    simp only [readAlgo, h, if_true]
    exact nextByte_congr fun b t _ => (decodeReturn_of_not_done (by simp)).symm
  | len =>
    refine nextByte_congr fun b t _ => (decodeReturn_of_not_done ?_).symm
    rw [takeLen_ph]
    split <;> simp
  | pay =>
    refine nextByte_congr fun b t ht => (decodeReturn_of_not_done ?_).symm
    rw [takePayload_ph]
    split <;> simp [ht, hph]
  | idle | done => simp [hph] at h

/-- A byte leaves the decode at its next read, or ends it (43_framer.md R152 to R161). -/
theorem takeByte_point {s : State} (b : Byte) (h : framePoint s) :
    framePoint (takeByte s.frm.ph b s) ∨ (takeByte s.frm.ph b s).frm.ph = .done := by
  obtain ⟨hres, hpt⟩ := h
  cases hph : s.frm.ph with
  | h1 =>
    simp only [hph] at hpt
    obtain ⟨hp, ha, hr⟩ | hd | ⟨hp, ha, hb, hr⟩ := takeH1_searched b s
    · exact .inl ⟨hr.trans hres, by simp [takeByte, hp, ha rfl, Config.syncBudget]⟩
    · exact .inr hd
    · exact .inl ⟨hr.trans hres, by simp only [takeByte, hp, hph]; omega⟩
  | h2 =>
    simp only [hph] at hpt
    obtain ⟨hp, -, hr⟩ | hd | ⟨hp, ha, hb, hr⟩ := takeH2_searched b s
    · exact .inl ⟨hr.trans hres, by simp [takeByte, hp]⟩
    · exact .inr hd
    · exact .inl ⟨hr.trans hres, by simp only [takeByte, hp, hph]; omega⟩
  | cmd =>
    refine .inl ⟨hres, ?_⟩
    cases ha : s.profile.hasAlgo <;> simp [takeByte, ha]
    exact ha
  | algo => exact .inl ⟨hres, trivial⟩
  | len => exact .inl (framePoint_of_payloadPoint hres (takeLen_payloadPoint b s))
  | pay => exact .inl (framePoint_of_payloadPoint hres (takePayload_payloadPoint b hph))
  | ck => exact .inr rfl
  | idle | done => simp [hph] at hpt

theorem takeByte_framerOnly (ph : FrmPh) (b : Byte) (s : State) : framerOnly s (takeByte ph b s) := by
  cases ph with
  | h1 => exact takeH1_framerOnly b s
  | h2 => exact takeH2_framerOnly b s
  | cmd | algo | len | pay | ck | idle | done => rfl

/-! ### The camera protocol -/

/-- No call of a decode changes the protocol's registers. -/
structure SameExchange (s t : State) : Prop extends SameArbiter s t where
  connected : t.connected = s.connected
  ccp : t.ccp = s.ccp

theorem SameExchange.trans {s t u : State} (h : SameExchange s t) (g : SameExchange t u) : SameExchange s u :=
  ⟨h.toSameArbiter.trans g.toSameArbiter, g.connected.trans h.connected, g.ccp.trans h.ccp⟩

theorem Answered.sameExchange {s t : State} (h : Answered s t) : SameExchange s t := by
  obtain ⟨e, tr, -, rfl⟩ := h.exists_eq
  exact ⟨(SameArbiter.refl s).update, rfl, rfl⟩

theorem framerOnly.sameExchange {s t : State} (h : framerOnly s t) : SameExchange s t := by
  obtain ⟨hprofile, hconn, harb, hpins, -, hccp, -, -, -, -, -, -, -, -, -, hcall, hstopping⟩ := (framerOnly_iff s t).1 h
  exact ⟨⟨⟨hprofile, hcall, hstopping⟩, harb, by rw [hpins]⟩, hconn, hccp⟩

/-- A decode is under way for the exchange that `CCP_PH` names (45_camera_protocol.md R204). -/
def awaiting (s : State) : Prop :=
  match s.ccp.ph with
  | .knockRx => s.connected = false
  | .algRx => s.connected = false ∧ s.profile.hasAlgsel = true
  | .reqRx | .nestRx => s.connected = true
  | .idle | .knockTx | .algTx | .reqTx | .flush | .done => False

theorem awaiting.cameraPoint_iff {s : State} (h : awaiting s) : cameraPoint s ↔ framePoint s := by
  unfold awaiting at h
  unfold cameraPoint
  cases hph : s.ccp.ph <;> simp_all

/-- At a point of the call tree, a decode that is under way has its exchange and its next read. -/
theorem cameraPoint.awaiting {s : State} (h : cameraPoint s) (hp : s.ccp.ph.awaitsFrame) : awaiting s ∧ framePoint s := by
  unfold cameraPoint at h
  unfold Machine.awaiting
  cases hph : s.ccp.ph <;> simp_all [CcpPh.awaitsFrame]

theorem awaiting.awaitsFrame {s : State} (h : awaiting s) : s.ccp.ph.awaitsFrame := by
  unfold awaiting at h
  cases hph : s.ccp.ph <;> simp_all [CcpPh.awaitsFrame]

theorem stepCamera_of_awaitsFrame {s : State} (h : s.ccp.ph.awaitsFrame) : stepCamera s = stepFrame s := by
  unfold stepCamera
  cases hph : s.ccp.ph with
  | knockRx | algRx | reqRx | nestRx => rfl
  | idle | knockTx | algTx | reqTx | flush | done => simp [hph, CcpPh.awaitsFrame] at h

theorem SameExchange.awaiting {s t : State} (h : SameExchange s t) (hs : awaiting s) : awaiting t := by
  simpa [Machine.awaiting, h.profile, h.connected, h.ccp] using hs

section
variable {s u : State} (hcmd : uplinkCmd s.arb.cmd = .camData) (hkeep : SameArbiter s u)
include hcmd hkeep

theorem cameraReturn_went (blk : Option Block) : HandlerWent cameraPoint s (cameraReturn blk u) :=
  .inr ⟨_, setCcpPh .done u, hkeep.update,
    by rw [blockReportBytes_length, respSize_of_camData hcmd, hkeep.profile], rfl⟩

theorem absentReturn_went : HandlerWent cameraPoint s (absentReturn u) :=
  .inr ⟨_, takeAbsent u, hkeep.update,
    by rw [absentReport, blockReportBytes_length, respSize_of_camData hcmd, hkeep.profile], rfl⟩

omit hcmd in
theorem enterFlush_went (hmax : 0 < s.profile.flushMax) (hconn : u.connected = true) :
    HandlerWent cameraPoint s (enterFlush u) :=
  .inl ⟨hkeep.update, hconn, by rw [← hkeep.profile] at hmax; exact hmax⟩

theorem blockReturn_went (hmax : 0 < s.profile.flushMax) (hconn : u.connected = true) {f : Frame} (off : Offsets)
    (hlen : f.payload.length = f.length.toNat) :
    (blockReturn f off u).CallFrom True s fun _ => HandlerWent cameraPoint s := by
  unfold blockReturn
  split
  · rename_i hc
    obtain ⟨b, hb⟩ := extract_of_covers u hlen hc
    rw [hb]
    have hblk : SameArbiter s (u.setCcp { u.ccp with blk := b, blkValid := true }) :=
      hkeep.update
    exact cameraReturn_went hcmd hblk (some b)
  · exact enterFlush_went hkeep hmax hconn

/-- A step of the handshake is over: the camera is connected from the last one on (45_camera_protocol.md R192 to R195). -/
theorem handshakeReturn_went (r : FrameResult) (hconn : u.connected = false) :
    (if matchesCode r u.profile.cmdOk then Eff.ok () (handshakeStepOk u) else .ok () (absentReturn u)).CallFrom True s
      fun _ => HandlerWent cameraPoint s := by
  split
  · unfold handshakeStepOk
    split
    · rename_i h
      exact .inl ⟨hkeep.update, hconn, h.2⟩
    · exact .inl ⟨hkeep.update, rfl⟩
  · exact absentReturn_went hcmd hkeep

theorem protocolReturn_went (hmax : 0 < s.profile.flushMax) (hp : awaiting u) {r : FrameResult}
    (hr : ∀ f, r = .ok f → f.payload.length = f.length.toNat) :
    (protocolReturn r u).CallFrom True s fun _ => HandlerWent cameraPoint s := by
  unfold awaiting at hp
  unfold protocolReturn
  cases hph : u.ccp.ph with
  | knockRx => exact handshakeReturn_went hcmd hkeep r (by simpa [hph] using hp)
  | algRx => exact handshakeReturn_went hcmd hkeep r (by simp only [hph] at hp; exact hp.1)
  | reqRx =>
    simp only [hph] at hp
    cases r with
    | syncError code => exact enterFlush_went hkeep hmax hp
    | ok f =>
      dsimp only
      cases responseClass u.profile f.command with
      | wrapped => exact .inl ⟨hkeep.update, hp, rfl, Nat.zero_lt_succ 31⟩
      | direct => exact blockReturn_went hcmd hkeep hmax hp _ (hr f rfl)
      | unknown => exact enterFlush_went hkeep hmax hp
  | nestRx =>
    simp only [hph] at hp
    cases r with
    | syncError code => exact enterFlush_went hkeep hmax hp
    | ok g => exact blockReturn_went hcmd hkeep hmax hp _ (hr g rfl)
  | idle | knockTx | algTx | reqTx | flush | done => simp [hph] at hp

theorem decodeReturn_went (hmax : 0 < s.profile.flushMax) (hp : awaiting u)
    (hfrm : framePoint u ∨ u.frm.ph = .done) :
    (decodeReturn u).CallFrom True s fun _ => HandlerWent cameraPoint s := by
  by_cases hd : u.frm.ph = .done
  · rw [decodeReturn_of_done hd]
    exact protocolReturn_went (u := result u) hcmd hkeep.update hmax hp fun f h => resultOf_ok_length h
  · rw [decodeReturn_of_not_done hd]
    exact .inl ⟨hkeep, hp.cameraPoint_iff.2 (hfrm.resolve_right hd)⟩

end

/-- One pass of the flush is one read, after which the flush is over or below its bound (44_flusher.md R181 to R183). -/
theorem stepFlush_call {s : State} (hn : flushReadsOn s) : (stepFlush s).CallFrom True s fun r t =>
    SameArbiter s t ∧ t.connected = s.connected ∧ t.ccp = s.ccp ∧ t.flu.n = s.flu.n + 1 ∧ (r = none → flushReadsOn t) := by
  simp only [stepFlush, hn, if_true]
  refine (camRead_call s _).andThen fun c t h => ?_
  obtain ⟨e, tr, -, rfl⟩ := h.exists_eq
  refine ⟨(SameArbiter.refl s).update, rfl, rfl, rfl, fun hv => ?_⟩
  unfold chunkVerdict at hv
  split at hv
  · cases hv
  · split at hv
    · assumption
    · cases hv

/-- The registers after a pass of the flush with the result `r` (44_flusher.md R181, 45_camera_protocol.md R200). -/
def flushed (r : Option FlushResult) (s : State) : State :=
  match r with
  | some _ => cameraReturn none s
  | none => s

theorem stepCamera_flush {s : State} (h : s.ccp.ph = .flush) :
    stepCamera s = (stepFlush s).andThen fun r t => .ok () (flushed r t) := by
  simp only [stepCamera, h]
  congr 1
  funext r t
  cases r <;> rfl

/-- A request frame has been written, and the decode of the answer begins (45_camera_protocol.md R192, R194, R197). -/
theorem camWriteThen_call {s : State} (bs : List Byte) (ph : CcpPh)
    (hpt : awaiting (setCcpPh ph s)) :
    ((camWrite bs s).andThen fun _ t => .ok () (frameStart (setCcpPh ph t))).CallFrom True s
      fun _ => HandlerWent cameraPoint s :=
  (camWrite_call s bs).andThen fun _ _ h => by
    obtain ⟨e, tr, -, rfl⟩ := h.exists_eq
    have hp : awaiting (frameStart (setCcpPh ph { s with env := e, trace := tr })) := hpt
    exact .inl ⟨(SameArbiter.refl s).update, hp.cameraPoint_iff.2 ⟨rfl, Nat.zero_lt_succ 31⟩⟩

/-- One read of a decode, and what its caller does where the decode has ended. -/
theorem stepFrame_call {s : State} (hcmd : uplinkCmd s.arb.cmd = .camData) (hmax : 0 < s.profile.flushMax)
    (hp : awaiting s) (hf : framePoint s) : (stepFrame s).CallFrom True s fun _ => HandlerWent cameraPoint s := by
  rw [stepFrame_eq hf.readDue]
  refine (nextByte_call s).andThen fun b t ht => ?_
  obtain ⟨e, tr, -, rfl⟩ := ht.exists_eq
  have hsame := ht.sameExchange.trans (takeByte_framerOnly s.frm.ph b { s with env := e, trace := tr }).sameExchange
  exact decodeReturn_went hcmd hsame.toSameArbiter hmax (hsame.awaiting hp)
    (takeByte_point (s := { s with env := e, trace := tr }) b hf)

theorem stepCamera_call {s : State} (hcmd : uplinkCmd s.arb.cmd = .camData) (hmax : 0 < s.profile.flushMax)
    (h : cameraPoint s) : (stepCamera s).CallFrom True s fun _ => HandlerWent cameraPoint s := by
  cases hph : s.ccp.ph with
  | knockRx | algRx | reqRx | nestRx =>
    obtain ⟨hp, hf⟩ := h.awaiting (by rw [hph]; trivial)
    rw [stepCamera_of_awaitsFrame hp.awaitsFrame]
    exact stepFrame_call hcmd hmax hp hf
  | knockTx | algTx | reqTx =>
    simp only [cameraPoint, hph] at h
    simp only [stepCamera, hph]
    exact camWriteThen_call _ _ h
  | flush =>
    simp only [cameraPoint, hph] at h
    obtain ⟨hconn, hn⟩ := h
    rw [stepCamera_flush hph]
    refine (stepFlush_call hn).andThen fun r t ⟨hkeep, hc, hccp, _, hon⟩ => ?_
    cases r with
    | some r => exact cameraReturn_went hcmd hkeep none
    | none => exact .inl ⟨hkeep, by simp [flushed, cameraPoint, hccp, hph, hc, hconn, hon rfl]⟩
  | idle | done => simp [cameraPoint, hph] at h

/-- The catch of R204 turns a fault into the return of a zero report (45_camera_protocol.md R204, R205). -/
theorem caughtCamera_call {s : State} {m : Eff Unit} (hcmd : uplinkCmd s.arb.cmd = .camData)
    (hm : m.CallFrom True s fun _ => HandlerWent cameraPoint s) :
    (caughtCamera m).CallFrom False s fun _ => HandlerWent cameraPoint s := by
  cases m with
  | camFault k t => exact absentReturn_went hcmd hm.2
  | ok | fatal | blocked | stop => exact hm

/-! ### The handlers together -/

theorem HandlerWent.mono {p q : State → Prop} {s t : State} (h : HandlerWent p s t) (hpq : SameArbiter s t → p t → q t) :
    HandlerWent q s t :=
  h.imp (fun ⟨hkeep, hp⟩ => ⟨hkeep, hpq hkeep hp⟩) id

theorem stepHandler_call {s : State} (hmax : 0 < s.profile.flushMax) (h : handlerPoint s) :
    (stepHandler s).CallFrom False s fun _ => HandlerWent handlerPoint s := by
  unfold handlerPoint at h
  unfold stepHandler
  cases hc : uplinkCmd s.arb.cmd <;> simp only [hc] at h ⊢
  case sigLo =>
    exact (stepScan_call (.inl hc) h).mono fun _ t ht => ht.mono fun hkeep hp => by
      simpa only [handlerPoint, hkeep.arb, hc] using hp
  case sigHi =>
    exact (stepScan_call (.inr hc) h).mono fun _ t ht => ht.mono fun hkeep hp => by
      simpa only [handlerPoint, hkeep.arb, hc] using hp
  case camData =>
    exact (caughtCamera_call hc (stepCamera_call hc hmax h)).mono fun _ t ht => ht.mono fun hkeep hp => by
      simpa only [handlerPoint, hkeep.arb, hc] using hp
  case unrecognized =>
    have hlen : ([] : List Byte).length = respSize s.profile s.arb.cmd := by simp [respSize, hc]
    exact .inr ⟨[], s.log (.diag (.unrecognized s.arb.cmd)), (SameArbiter.refl s).update, hlen, rfl⟩

/-! ## The invariant of the position is kept -/

section
variable (bs : List Byte) (s : State)
@[simp] theorem handlerReturn_ph : (handlerReturn bs s).arb.ph = if bs = [] then .settle else .write := rfl
@[simp] theorem handlerReturn_mode : (handlerReturn bs s).arb.mode = s.arb.mode := rfl
@[simp] theorem handlerReturn_cmd : (handlerReturn bs s).arb.cmd = s.arb.cmd := rfl
@[simp] theorem handlerReturn_respLen : (handlerReturn bs s).arb.respLen = bs.length := rfl
@[simp] theorem handlerReturn_halt : (handlerReturn bs s).arb.halt = s.arb.halt := rfl
@[simp] theorem handlerReturn_pins : (handlerReturn bs s).pins = s.pins := rfl
@[simp] theorem handlerReturn_profile : (handlerReturn bs s).profile = s.profile := rfl
@[simp] theorem handlerReturn_call : (handlerReturn bs s).call = s.call := rfl
@[simp] theorem handlerReturn_stopping : (handlerReturn bs s).stopping = s.stopping := rfl
end

@[simp] theorem setArbPh_arb (ph : ArbPh) (s : State) : (setArbPh ph s).arb = { s.arb with ph := ph } := rfl
@[simp] theorem setArbPh_pins (ph : ArbPh) (s : State) : (setArbPh ph s).pins = s.pins := rfl
@[simp] theorem setArbPh_profile (ph : ArbPh) (s : State) : (setArbPh ph s).profile = s.profile := rfl
@[simp] theorem setArbPh_stopping (ph : ArbPh) (s : State) : (setArbPh ph s).stopping = s.stopping := rfl

theorem SameContext.running {s t : State} (h : SameContext s t) (hr : Running s) : Running t :=
  ⟨h.call.trans hr.1, by rw [h.profile]; exact hr.2⟩

theorem SameContext.setArbPh {s t : State} (h : SameContext s t) (ph : ArbPh) : SameContext s (setArbPh ph t) :=
  ⟨h.profile, h.call, h.stopping⟩

theorem HandlerReturned.sameContext {s t : State} (h : HandlerReturned s t) : SameContext s t := by
  obtain ⟨bs, u, hkeep, -, rfl⟩ := h
  exact ⟨hkeep.profile, hkeep.call, hkeep.stopping⟩

theorem HandlerWent.sameContext {p : State → Prop} {s t : State} (h : HandlerWent p s t) : SameContext s t :=
  h.elim (fun ⟨hkeep, _⟩ => hkeep.toSameContext) HandlerReturned.sameContext

theorem SameArbiter.inTransmit {s t : State} (h : SameArbiter s t) (htx : inTransmit s) : inTransmit t := by
  simpa [Machine.inTransmit, h.arb, h.dir, h.profile] using htx

/-! ### What the invariant asks for in each phase, while the engine has not halted and no `FATAL_STOP` is under way -/

section
variable {t : State} (hh : t.arb.halt = false) (hst : t.stopping = none)
include hh hst

theorem inv_of_receive (hph : t.arb.ph = .waitCmd ∨ t.arb.ph = .setTx) (hrx : inReceive t) : Inv t := by
  constructor <;> rcases hph with hph | hph <;> simp [hph, hh, hst, hrx]

theorem inv_of_dispatch (hph : t.arb.ph = .dispatch) (htx : inTransmit t) (hpt : handlerPoint t) : Inv t := by
  constructor <;> simp [hph, hh, hst, htx, hpt]

theorem inv_of_settle (hph : t.arb.ph = .settle) (htx : inTransmit t)
    (hlen : t.arb.respLen = respSize t.profile t.arb.cmd) : Inv t := by
  constructor <;> simp [hph, hh, hst, htx, hlen]

theorem inv_of_write (hph : t.arb.ph = .write) (htx : inTransmit t)
    (hlen : t.arb.respLen = respSize t.profile t.arb.cmd) (hcmd : uplinkCmd t.arb.cmd ≠ .unrecognized) : Inv t := by
  constructor <;> simp [hph, hh, hst, htx, hlen, hcmd]

end

/-! ### Calls of the loop -/

section
variable {s t : State} (hh : s.arb.halt = false) (hst : s.stopping = none)
include hh hst

/-- A handler that has returned leaves the response and the bus as writing it needs them; only an empty response is not
written (46_arbiter.md R230). -/
theorem inv_of_handlerReturned (htx : inTransmit s) (h : HandlerReturned s t) : Inv t := by
  obtain ⟨bs, u, hkeep, hlen, rfl⟩ := h
  have hbus : inTransmit (handlerReturn bs u) := hkeep.inTransmit htx
  have hhalt : u.arb.halt = false := by rw [hkeep.arb, hh]
  have hnone : u.stopping = none := hkeep.stopping.trans hst
  have hresp : bs.length = respSize u.profile u.arb.cmd := by rw [hkeep.profile, hkeep.arb, hlen]
  by_cases hb : bs = []
  · exact inv_of_settle hhalt hnone (by simp [hb]) hbus hresp
  · refine inv_of_write hhalt hnone (by simp [hb]) hbus hresp fun hc => hb ?_
    rw [handlerReturn_cmd] at hc
    simpa [respSize, hc] using hresp

/-- A step of a handler. -/
theorem inv_of_handlerWent (hph : s.arb.ph = .dispatch) (htx : inTransmit s) (h : HandlerWent handlerPoint s t) : Inv t := by
  obtain ⟨hkeep, hp⟩ | hret := h
  · exact inv_of_dispatch (by rw [hkeep.arb, hh]) (hkeep.stopping.trans hst) (by rw [hkeep.arb, hph])
      (hkeep.inTransmit htx) hp
  · exact inv_of_handlerReturned hh hst htx hret

end

/-- `DISPATCH` begins the handler of the command at its first point (46_arbiter.md R225). -/
theorem handlerPoint_dispatchEnter (s : State) : handlerPoint (dispatchEnter s) := by
  unfold dispatchEnter handlerPoint
  cases hc : uplinkCmd s.arb.cmd with
  | sigLo | sigHi => simp [hc, scanPoint, scanStart, setFreq, setHalf, setScnPh]
  | camData => cases hconn : s.connected <;> simp [hc, cameraPoint, setCcpPh, hconn]
  | unrecognized => simp [hc]

theorem dispatchEnter_sameArbiter (s : State) : SameArbiter s (dispatchEnter s) := by
  unfold dispatchEnter
  split <;> exact ⟨⟨rfl, rfl, rfl⟩, rfl, rfl⟩

/-- A call of the loop keeps the invariant where it returns. -/
theorem loopCall_call {s : State} (hw : s.profile.wf = true) (hi : Inv s) (hh : s.arb.halt = false)
    (hst : s.stopping = none) :
    (loopCall s).CallFrom False s fun _ t => SameContext s t ∧ Inv t := by
  unfold loopCall
  cases hph : s.arb.ph with
  | setRx =>
    refine (setRx_call False).andThen fun _ t ⟨hctx, harb, hrx⟩ => ⟨hctx.setArbPh _, ?_⟩
    exact inv_of_receive (by simp [harb, hh]) (hctx.stopping.trans hst) (.inl rfl) hrx
  | waitCmd =>
    obtain ⟨hmode, hdir⟩ := hi.wait_receives hph
    refine (waitCmd_call False hmode).andThen fun _ t ⟨hctx, ⟨_, harb⟩, hdir'⟩ => ⟨hctx.setArbPh _, ?_⟩
    refine inv_of_receive (by simp [harb, hh]) (hctx.stopping.trans hst) (.inr rfl) ⟨by simp [harb, hmode], ?_⟩
    rw [setArbPh_pins, setArbPh_profile, hdir', hctx.profile, hdir]
  | setTx =>
    refine (setTx_call False).andThen fun _ t ⟨hctx, harb, htx⟩ => ?_
    have hkeep := dispatchEnter_sameArbiter (setArbPh .dispatch t)
    refine ⟨hctx.trans ⟨hkeep.profile, hkeep.call, hkeep.stopping⟩, ?_⟩
    exact inv_of_dispatch (by simp [hkeep.arb, harb, hh]) (hkeep.stopping.trans (hctx.stopping.trans hst))
      (by simp [hkeep.arb]) (hkeep.inTransmit htx) (handlerPoint_dispatchEnter _)
  | dispatch =>
    obtain ⟨htx, hpt⟩ := hi.dispatch_transmits hph
    obtain ⟨-, -, -, -, hmax, -⟩ := (profile_wf_iff s.profile).1 hw
    exact (stepHandler_call hmax hpt).mono fun _ t ht => ⟨ht.sameContext, inv_of_handlerWent hh hst hph htx ht⟩
  | write =>
    obtain ⟨htx, hlen, -⟩ := hi.write_transmits hph
    refine (writeResp_call False htx.1).andThen fun _ t hkeep => ⟨hkeep.toSameContext.setArbPh _, ?_⟩
    exact inv_of_settle (by simp [hkeep.arb, hh]) (hkeep.stopping.trans hst) rfl (hkeep.inTransmit htx)
      (by simp [hkeep.arb, hkeep.profile, hlen])
  | settle =>
    refine (txSettle_call False).andThen fun _ t hkeep => ⟨hkeep.toSameContext.setArbPh _, ?_⟩
    exact inv_of_setRx rfl (by simp [hkeep.arb, hh]) (by simp [hkeep.stopping, hst])
  | halted => simp [hi.halt_iff.2 hph] at hh

/-! ### Failing calls -/

/-- The halt is latched, and the bus is in RECEIVE (46_arbiter.md R232). -/
theorem inv_takeFatal (c : FatalCause) {s : State} (hst : s.stopping = none) : Inv (takeFatal c s) := by
  constructor <;> simp [hst]

theorem takeFatal_sameContext (c : FatalCause) (s : State) : SameContext s (takeFatal c s) := by
  unfold takeFatal restoreDir
  cases s.arb.mode with
  | receive => exact ⟨rfl, rfl, rfl⟩
  | transmit => dsimp only; split <;> exact ⟨rfl, rfl, rfl⟩

/-- The position of a failing call is kept until the restoring `PinSet` of `FATAL_STOP` has been made. -/
theorem Answered.inv_setStopping {s t : State} (h : Answered s t) (hi : Inv s) (hh : s.arb.halt = false) (c : FatalCause)
    (hm : s.arb.mode = .transmit) : Inv (t.setStopping (some c)) := by
  have hpt : handlerPoint s → handlerPoint (t.setStopping (some c)) := h.handlerPoint_iff.2
  obtain ⟨e, tr, -, rfl⟩ := h.exists_eq
  exact { hi with
    dispatch_transmits := fun hph => (hi.dispatch_transmits hph).imp id hpt
    stopping_transmits := fun _ => ⟨hm, hh⟩ }

/-- Settles O51: a `FATAL_STOP` under way halts; otherwise the call of the loop keeps the invariant where it returns, and where it
fails the position is kept or the engine halts. -/
theorem invIsKept : Obligations.InvIsKept := by
  intro s t hr hi hstep
  obtain ⟨hh, hw, ⟨c, hs, rfl⟩ | ⟨hs, hclose⟩⟩ := step_cases hr.1 hstep
  · exact ⟨inv_takeFatal c rfl, (takeFatal_sameContext c (s.setStopping none)).running hr⟩
  · have hcall := loopCall_call hw hi hh hs
    cases hm : loopCall s with
    | ok a u =>
      rw [hm] at hcall hclose
      cases hclose
      exact ⟨hcall.2, hcall.1.running hr⟩
    | fatal c u =>
      rw [hm] at hcall hclose
      cases hclose
      have hkeep : SameArbiter s u := hcall.sameArbiter
      cases hmode : u.arb.mode with
      | receive =>
        rw [enterFatal_of_receive c hmode]
        exact ⟨inv_takeFatal c (hkeep.stopping.trans hs), (takeFatal_sameContext c u).running (hkeep.running hr)⟩
      | transmit =>
        rw [enterFatal_of_transmit c hmode]
        exact ⟨hcall.inv_setStopping hi hh c (by rw [← hkeep.arb, hmode]), hkeep.running hr⟩
    | blocked u =>
      rw [hm] at hcall hclose
      cases hclose
      cases hcall
      exact ⟨hi, hr⟩
    | camFault | stop => rw [hm] at hcall; exact absurd hcall (by simp [Eff.CallFrom])

end Sys2Proof.Machine
end

section
/-! PROOFS. The steps do what the operations do in one piece (10_state.md R23). An operation is followed call by call:
`Eff.SteppedFrom` says that the steps from a state come to each ending of it, and has one rule for sequences and one for a call
that is due. -/

namespace Sys2Proof.Machine

/-! ## Runs of steps -/

/-- Some number of steps from `s` ends in `t`. -/
def Reaches (s t : State) : Prop := ∃ n : Nat, Sys2Proof.core.run n s = .next t

theorem Reaches.refl (s : State) : Reaches s s := ⟨0, rfl⟩

theorem core_run_succ {s t : State} (n : Nat) (h : step s = .next t) :
    Sys2Proof.core.run (n + 1) s = Sys2Proof.core.run n t := by
  have hcore : Sys2Proof.core.step s = .next t := h
  simp [Host.Core.run, hcore]

theorem Reaches.head {s t u : State} (h : step s = .next t) (htu : Reaches t u) : Reaches s u := by
  obtain ⟨n, hn⟩ := htu
  exact ⟨n + 1, (core_run_succ n h).trans hn⟩

theorem Reaches.trans {s t u : State} (hst : Reaches s t) (htu : Reaches t u) : Reaches s u := by
  obtain ⟨n, hn⟩ := hst
  induction n generalizing s with
  | zero =>
    cases hn
    exact htu
  | succ n ih =>
    cases hs : step s with
    | next s' => exact .head hs (ih ((core_run_succ n hs).symm.trans hn))
    | fault r =>
      have hcore : Sys2Proof.core.step s = .fault r := hs
      simp [Host.Core.run, hcore] at hn
    | refused r =>
      have hcore : Sys2Proof.core.step s = .refused r := hs
      simp [Host.Core.run, hcore] at hn

/-- A call of the loop is due. -/
def Ready (s : State) : Prop := Running s ∧ s.arb.halt = false ∧ s.stopping = none

theorem Ready.step_eq {s : State} (h : Ready s) : step s = (loopCall s).closeStep := by
  obtain ⟨hr, hh, hst⟩ := h
  rw [step_of_running hr hh, callDue_of_running hst]

theorem SameArbiter.ready {s t : State} (h : SameArbiter s t) (hr : Ready s) : Ready t :=
  ⟨h.running hr.1, by rw [h.arb]; exact hr.2.1, h.stopping.trans hr.2.2⟩

theorem reaches_of_ok {s t : State} (hr : Ready s) (h : loopCall s = .ok () t) : Reaches s t :=
  .head (by rw [hr.step_eq, h]; rfl) (.refl t)

/-- A `Fatal` of the call that is due is taken in one step, or, in TRANSMIT, in two (46_arbiter.md R232; log 35). -/
theorem reaches_takeFatal {s t : State} {c : FatalCause} (hr : Ready s) (h : loopCall s = .fatal c t) (ht : SameArbiter s t) :
    Reaches s (takeFatal c t) := by
  have hstep : step s = .next (enterFatal c t) := by rw [hr.step_eq, h]; rfl
  refine .head hstep ?_
  cases hm : t.arb.mode with
  | receive => rw [enterFatal_of_receive c hm]; exact .refl _
  | transmit =>
    obtain ⟨hrun, hh, hst⟩ := ht.ready hr
    rw [enterFatal_of_transmit c hm]
    refine .head ?_ (.refl _)
    rw [step_of_running (s := t.setStopping (some c)) hrun hh, callDue_of_stopping (c := c) rfl, closeStep_ok,
      leaveFatal_setStopping c hst]

/-! ## Operations followed step by step -/

/-- The steps from `s` do what an operation of this effect does: `q` says how far they have come where it returns; a `Fatal`
is taken, a wait is where they stand, and a camera fault, inside the `try` of R204 only, is taken by DeviceAbsent. -/
def Eff.SteppedFrom {α : Type} (inTry : Prop) (s : State) (q : α → State → Prop) : Eff α → Prop
  | .ok a t => q a t
  | .camFault _ t => inTry ∧ SameArbiter s t ∧ Reaches s (absentReturn t)
  | .fatal c t => Reaches s (takeFatal c t)
  | .blocked t => Reaches s t
  | .stop _ => False

section
variable {α β : Type} {inTry : Prop} {s v : State} {m : Eff α} {q : α → State → Prop}

theorem Eff.SteppedFrom.andThen {r : β → State → Prop} {f : α → State → Eff β} (hm : m.SteppedFrom inTry s q)
    (hf : ∀ a t, q a t → (f a t).SteppedFrom inTry s r) : (m.andThen f).SteppedFrom inTry s r := by
  cases m with
  | ok a t => exact hf a t hm
  | camFault | fatal | blocked | stop => exact hm

theorem Eff.SteppedFrom.mono {r : α → State → Prop} (hm : m.SteppedFrom inTry s q) (hqr : ∀ a t, q a t → r a t) :
    m.SteppedFrom inTry s r := by
  cases m with
  | ok a t => exact hqr a t hm
  | camFault | fatal | blocked | stop => exact hm

@[simp] theorem Eff.andThen_ok_self (m : Eff Unit) : (m.andThen fun _ t => .ok () t) = m := by cases m <;> rfl

/-- The run up to an operation comes before it. -/
theorem Eff.SteppedFrom.after (hsv : Reaches s v) (hm : m.SteppedFrom False v q) : m.SteppedFrom False s q := by
  cases m with
  | ok a t => exact hm
  | camFault => exact hm.1.elim
  | fatal | blocked => exact hsv.trans hm
  | stop => exact hm

/-- One call that is due is one step, together with what follows it up to the next call. -/
theorem loopCall_stepped (hsv : Reaches s v) (hv : Ready v) {g : α → State → State}
    (hdue : loopCall v = m.andThen fun a t => .ok () (g a t)) (hm : m.CallFrom False v q) :
    m.SteppedFrom False s fun a t => q a t ∧ Reaches s (g a t) := by
  cases m with
  | ok a t => exact ⟨hm, hsv.trans (reaches_of_ok hv hdue)⟩
  | camFault => exact hm.1.elim
  | fatal c t => exact hsv.trans (reaches_takeFatal hv hdue hm.sameArbiter)
  | blocked t => exact hm ▸ hsv
  | stop => exact hm

end

/-! ## The handlers -/

/-- The handler of the command `c` is running. -/
def Handling (c : UplinkCmd) (s : State) : Prop := Ready s ∧ s.arb.ph = .dispatch ∧ uplinkCmd s.arb.cmd = c

theorem SameArbiter.handling {c : UplinkCmd} {s t : State} (h : SameArbiter s t) (hs : Handling c s) : Handling c t :=
  ⟨h.ready hs.1, by rw [h.arb]; exact hs.2.1, by rw [h.arb]; exact hs.2.2⟩

theorem Handling.loopCall_scan {c : UplinkCmd} {s : State} (h : Handling c s) (hc : c = .sigLo ∨ c = .sigHi) :
    loopCall s = stepScan s := by
  obtain ⟨-, hph, hcmd⟩ := h
  rcases hc with rfl | rfl <;> simp [loopCall, hph, stepHandler, hcmd]

theorem Handling.loopCall_camera {s : State} (h : Handling .camData s) : loopCall s = caughtCamera (stepCamera s) := by
  obtain ⟨-, hph, hcmd⟩ := h
  simp [loopCall, hph, stepHandler, hcmd]

/-! ### The scan -/

section
variable {c : UplinkCmd} {s v : State} (hs : Handling c s) (hc : c = .sigLo ∨ c = .sigHi)
include hs hc

/-- One call of the scanner that is due, and the register updates up to the next. -/
theorem scanCall_stepped {α : Type} {m : Eff α} {q : α → State → Prop} {g : α → State → State} (hv : SameArbiter s v)
    (hsv : Reaches s v) (hdue : stepScan v = m.andThen fun a t => .ok () (g a t)) (hm : m.CallFrom False v q) :
    m.SteppedFrom False s fun a t => q a t ∧ Reaches s (g a t) :=
  loopCall_stepped hsv (hv.ready hs.1) (((hv.handling hs).loopCall_scan hc).trans hdue) hm

/-- Both halves of a pulse (41_scanner.md R132, R133), after which the scan is where `after` leaves it. -/
theorem pulse_stepped {assert release : State → Eff Unit} {after : State → State} {m : Nat} (hv : SameArbiter s v)
    (hsv : Reaches s v) (hhalf : v.scn.half = false) (hassert : stepScan v = assert v)
    (hrelease : ∀ t, t.scn = { v.scn with half := true } → stepScan t = (release t).andThen fun _ u => .ok () (after u))
    (hcassert : (assert v).CallFrom False v fun _ => Pulsed true m v)
    (hcrelease : ∀ t, ∃ n, (release t).CallFrom False t fun _ => Pulsed false n t) :
    ((assert v).andThen fun _ => release).SteppedFrom False s fun _ u =>
      SameArbiter s u ∧ u.scn = v.scn ∧ Reaches s (after u) := by
  refine (scanCall_stepped hs hc hv hsv (g := fun _ u => u) (by simp [hassert]) hcassert).andThen
    fun _ t ⟨⟨hkeep, hscn, _⟩, ht⟩ => ?_
  obtain ⟨n, hcall⟩ := hcrelease t
  refine (scanCall_stepped hs hc (hv.trans hkeep) ht (hrelease t hscn) hcall).mono
    fun _ u ⟨⟨hkeep', hscn', _⟩, hu⟩ => ⟨(hv.trans hkeep).trans hkeep', ?_, hu⟩
  rw [hscn', hscn, ← hhalf]

theorem muxResetPulse_stepped (hv : SameArbiter s v) (hsv : Reaches s v) (hph : v.scn.ph = .reset)
    (hhalf : v.scn.half = false) :
    (muxResetPulse v).SteppedFrom False s fun _ u =>
      SameArbiter s u ∧ u.scn = v.scn ∧ Reaches s (setScnPh .adv (setK 0 u)) :=
  pulse_stepped hs hc hv hsv hhalf (by simp [stepScan, hph, hhalf]) (fun t ht => by simp [stepScan, ht, hph])
    (muxResetAssert_call False v) fun t => ⟨_, muxResetRelease_call False t⟩

theorem muxAdvancePulse_stepped (hv : SameArbiter s v) (hsv : Reaches s v) (hph : v.scn.ph = .adv)
    (hhalf : v.scn.half = false) :
    (muxAdvancePulse v).SteppedFrom False s fun _ u =>
      SameArbiter s u ∧ u.scn = v.scn ∧ Reaches s (setScnPh .settleClk u) :=
  pulse_stepped hs hc hv hsv hhalf (by simp [stepScan, hph, hhalf]) (fun t ht => by simp [stepScan, ht, hph])
    (muxAdvanceAssert_call False v) fun t => ⟨_, muxAdvanceRelease_call False t⟩

theorem settle_stepped (hv : SameArbiter s v) (hsv : Reaches s (setScnPh .settleClk v)) :
    (settle v).SteppedFrom False s fun _ u =>
      SameArbiter s u ∧ u.scn = { v.scn with ph := .settleAdc } ∧ Reaches s (setScnPh .sample u) := by
  have hclk : SameArbiter s (setScnPh .settleClk v) := hv.update
  refine (scanCall_stepped hs hc hclk hsv rfl (sleep_call False _ _)).andThen fun _ t ⟨hans, ht⟩ => ?_
  have hadc : SameArbiter s (setScnPh .settleAdc t) := (hclk.trans hans.sameArbiter).update
  refine (scanCall_stepped hs hc hadc ht rfl (sleep_call False _ _)).mono fun _ u ⟨hans', hu⟩ =>
    ⟨hadc.trans hans'.sameArbiter, ?_, hu⟩
  obtain ⟨_, _, -, rfl⟩ := hans.exists_eq
  obtain ⟨_, _, -, rfl⟩ := hans'.exists_eq
  rfl

/-- The scan is at the channel `k`, no pulse being half made. -/
def AtChannel (s : State) (k : Fin 8) (t : State) : Prop := SameArbiter s t ∧ t.scn.half = false ∧ t.scn.k = k

theorem visitChannel_stepped {k : Fin 8} (hv : AtChannel s k v) (hsv : Reaches s (setScnPh .adv v)) :
    (visitChannel v).SteppedFrom False s fun _ u => AtChannel s k u ∧ Reaches s (sampled u) := by
  obtain ⟨hkeep, hhalf, hk⟩ := hv
  have hadv : SameArbiter s (setScnPh .adv v) := hkeep.update
  refine (muxAdvancePulse_stepped hs hc hadv hsv rfl hhalf).andThen fun _ t ⟨ht, hscn, htr⟩ => ?_
  refine (settle_stepped hs hc ht htr).andThen fun _ t' ⟨ht', hscn', htr'⟩ => ?_
  have hsample : SameArbiter s (setScnPh .sample t') := ht'.update
  refine (scanCall_stepped hs hc hsample htr' (stepScan_sample rfl) (sample_call False _)).mono
    fun _ u ⟨⟨hu, ⟨_, hscnu⟩, _⟩, hur⟩ => ⟨⟨hsample.trans hu, ?_, ?_⟩, hur⟩
  · simp [hscnu, setScnPh, hscn', hscn, hhalf]
  · simp [hscnu, setScnPh, hscn', hscn, hk]

/-- The channels of the list are those that a scan still has to visit after channel `k` (41_scanner.md R131). -/
def ChannelsAfter (k : Fin 8) : List (Fin 8) → Prop
  | [] => k = 7
  | j :: js => k ≠ 7 ∧ j = k + 1 ∧ ChannelsAfter j js

omit hs hc in
theorem channelsAfter_zero : ChannelsAfter 0 laterChannels := by
  simp [ChannelsAfter, laterChannels]

theorem scanLater_stepped {k : Fin 8} {ks : List (Fin 8)} (hks : ChannelsAfter k ks) (hv : AtChannel s k v)
    (hsv : Reaches s (sampled v)) :
    (scanLater ks v).SteppedFrom False s fun _ u => AtChannel s 7 u ∧ Reaches s (sampled u) := by
  induction ks generalizing k v with
  | nil => obtain rfl : k = 7 := hks; exact ⟨hv, hsv⟩
  | cons j js ih =>
    obtain ⟨hk7, rfl, hjs⟩ := hks
    obtain ⟨hkeep, hhalf, hk⟩ := hv
    have hinter : SameArbiter s (setScnPh .interch (setK (k + 1) v)) := hkeep.update
    have hdelay : Reaches s (setScnPh .interch (setK (k + 1) v)) := by simpa [sampled, hk, hk7] using hsv
    refine (scanCall_stepped hs hc hinter hdelay rfl (sleep_call False _ _)).andThen fun _ t ⟨hans, ht⟩ => ?_
    have hat : AtChannel s (k + 1) t := by
      refine ⟨hinter.trans hans.sameArbiter, ?_⟩
      obtain ⟨_, _, -, rfl⟩ := hans.exists_eq
      exact ⟨hhalf, rfl⟩
    exact (visitChannel_stepped hs hc hat ht).andThen fun _ t' ⟨hat', ht'⟩ => ih hjs hat' ht'

/-- The steps from `S_RESET` make the scan, up to the report of the last sample. -/
theorem scan_stepped (hv : SameArbiter s v) (hsv : Reaches s (scanStart v)) :
    (scan v).SteppedFrom False s fun _ u =>
      SameArbiter s u ∧ Reaches s (handlerReturn (signalReportBytes u.profile (selectRegs u).scn.idxmax
        (selectRegs u).scn.mag u.scn.freq) (selectRegs u)) := by
  have hstart : SameArbiter s (scanStart v) := hv.update
  refine (muxResetPulse_stepped hs hc hstart hsv rfl rfl).andThen fun _ t ⟨ht, hscn, htr⟩ => ?_
  have hzero : AtChannel s 0 (setK 0 t) :=
    ⟨ht.update, by simp [setK, hscn, scanStart, setHalf], rfl⟩
  refine (visitChannel_stepped hs hc hzero htr).andThen fun _ t' ⟨hat, ht'⟩ => ?_
  refine (scanLater_stepped hs hc channelsAfter_zero hat ht').andThen fun _ u ⟨⟨hkeep, _, hk⟩, hu⟩ => ?_
  simp only [sampled, hk, if_true] at hu
  exact ⟨hkeep.update, hu⟩

/-- The steps of a signal command (42_selector.md R146). -/
theorem signal_stepped (freq : Bool) (hv : SameArbiter s v) (hsv : Reaches s (scanStart (setFreq freq v))) :
    (signal freq v).SteppedFrom False s fun bs u => SameArbiter s u ∧ Reaches s (handlerReturn bs u) :=
  (scan_stepped hs hc (v := setFreq freq v) hv.update hsv).andThen fun _ _ ⟨ht, htr⟩ =>
    ⟨ht.update, htr⟩

end

/-! ### The decode of a frame -/

/-- The steps from `s` have come to `u`, up to the return of a decode that has ended there; `v` is where it started. -/
def Decoding (s v u : State) : Prop := SameExchange v u ∧ ∀ w, decodeReturn u = .ok () w → Reaches s w

theorem Decoding.reaches {s v u : State} (h : Decoding s v u) (hu : u.frm.ph ≠ .done) : Reaches s u :=
  h.2 u (decodeReturn_of_not_done hu)

theorem readDue.not_done {s : State} (h : readDue s) : s.frm.ph ≠ .done := by
  intro hd
  simp [readDue, hd] at h

/-- A decode has returned `r` to the exchange `ph`; a frame has the payload that it announces (10_state.md R32). -/
structure Returned (s : State) (ph : CcpPh) (r : FrameResult) (u : State) : Prop where
  kept : SameArbiter s u
  ccpPh : u.ccp.ph = ph
  length : ∀ f, r = .ok f → f.payload.length = f.length.toNat
  reaches : ∀ w, protocolReturn r u = .ok () w → Reaches s w

theorem setFrm_h2_self {s : State} (hph : s.frm.ph = .h2) (hatt : s.frm.att = 0) :
    s.setFrm { s.frm with ph := .h2, att := 0 } = s := by
  have hself : ({ s.frm with ph := .h2, att := 0 } : Framer) = s.frm := by rw [← hph, ← hatt]
  rw [hself]
  rfl

theorem setFrmPh_self {ph : FrmPh} {s : State} (h : s.frm.ph = ph) : setFrmPh ph s = s := by subst h; rfl

section
variable {s v u : State} (hs : Handling .camData s)
include hs

/-- One call of the camera path that is due, and what follows it up to the next; the catch of R204 takes its fault. -/
theorem cameraCall_stepped {α : Type} {m : Eff α} {q : α → State → Prop} {g : α → State → Eff Unit} (hv : SameArbiter s v)
    (hsv : Reaches s v) (hdue : stepCamera v = m.andThen g) (hm : m.CallFrom True v q) :
    m.SteppedFrom True s fun a t => q a t ∧ ∀ w, g a t = .ok () w → Reaches s w := by
  have hready : Ready v := hv.ready hs.1
  have hloop : loopCall v = caughtCamera (m.andThen g) := by rw [(hv.handling hs).loopCall_camera, hdue]
  cases m with
  | ok a t =>
    refine ⟨hm, fun w hw => hsv.trans (reaches_of_ok hready ?_)⟩
    rw [hloop, Eff.andThen_ok, hw]; rfl
  | camFault k t => exact ⟨trivial, hv.trans hm.2, hsv.trans (reaches_of_ok hready hloop)⟩
  | fatal c t => exact hsv.trans (reaches_takeFatal hready hloop hm.sameArbiter)
  | blocked t => exact hm ▸ hsv
  | stop => exact hm

variable (hv : SameArbiter s v) (hp : v.ccp.ph.awaitsFrame)
include hv hp

/-- The read of one byte, in the phase `ph`. -/
theorem readByte_stepped {ph : FrmPh} (hd : Decoding s v u) (hph : u.frm.ph = ph) (hr : readDue u) :
    ((nextByte u).andThen fun b t => .ok () (takeByte ph b t)).SteppedFrom True s fun _ w =>
      Decoding s v w ∧ ∃ b t, Answered u t ∧ w = takeByte ph b t := by
  have hwait : u.ccp.ph.awaitsFrame := by rw [hd.1.ccp]; exact hp
  have hdue := (stepCamera_of_awaitsFrame hwait).trans (stepFrame_eq hr)
  rw [hph] at hdue
  refine (cameraCall_stepped hs (hv.trans hd.1.toSameArbiter) (hd.reaches hr.not_done) hdue (nextByte_call u)).andThen
    fun b t ⟨hans, hret⟩ => ⟨⟨?_, hret⟩, b, t, hans, rfl⟩
  exact hd.1.trans (hans.sameExchange.trans (takeByte_framerOnly ph b t).sameExchange)

/-- A header search (43_framer.md R152, R154): it ends in an abort, or in the phase `next`. -/
theorem searchLoop_stepped {loop : Nat → State → Eff Unit} {ph next : FrmPh} (hph : ph = .h1 ∨ ph = .h2) (hne : next ≠ ph)
    (hloop : ∀ n t, loop (n + 1) t = ((nextByte t).andThen fun b t => .ok () (takeByte ph b t)).andThen fun _ t =>
      if t.frm.ph = ph then loop n t else .ok () t)
    (htake : ∀ b t, Searched next t (takeByte ph b t)) (n : Nat) (hd : Decoding s v u) (hu : u.frm.ph = ph)
    (hatt : u.frm.att < Config.syncBudget) (hn : u.frm.att + n = Config.syncBudget) :
    (loop n u).SteppedFrom True s fun _ w =>
      Decoding s v w ∧ (w.frm.ph = .done ∨ (w.frm.ph = next ∧ (next = .h2 → w.frm.att = 0))) := by
  induction n generalizing u with
  | zero => omega
  | succ n ih =>
    have hr : readDue u := by rcases hph with rfl | rfl <;> simp [readDue, hu]
    rw [hloop]
    refine (readByte_stepped hs hv hp hd hu hr).andThen fun _ w ⟨hw, b, t, hans, htk⟩ => ?_
    have hsr := htake b t
    obtain ⟨_, _, -, rfl⟩ := hans.exists_eq
    rw [← htk] at hsr
    obtain ⟨hwn, ha, -⟩ | hwd | ⟨hwp, ha, hb, -⟩ := hsr
    · rw [if_neg (by rw [hwn]; exact hne)]
      exact ⟨hw, .inr ⟨hwn, ha⟩⟩
    · rw [if_neg (by rw [hwd]; rcases hph with rfl | rfl <;> decide)]
      exact ⟨hw, .inl hwd⟩
    · rw [if_pos (hwp.trans hu)]
      dsimp only at ha
      exact ih hw (hwp.trans hu) (by omega) (by omega)

omit hs hp in
/-- `F_DONE`: the result is returned (43_framer.md R162). -/
theorem returnResult_stepped (hd : Decoding s v u) (hu : u.frm.ph = .done) :
    (returnResult u).SteppedFrom True s (Returned s v.ccp.ph) where
  kept := (hv.trans hd.1.toSameArbiter).update
  ccpPh := congrArg Camera.ph hd.1.ccp
  length _ h := resultOf_ok_length h
  reaches w hw := hd.2 w ((decodeReturn_of_done hu).trans hw)

theorem payloadLoop_stepped (n : Nat) (hd : Decoding s v u) (hu : payloadPoint u)
    (hn : u.frm.len.toNat - u.frm.idx = n) :
    (payloadLoop n u).SteppedFrom True s fun _ w => Decoding s v w ∧ w.frm.ph = .ck := by
  induction n generalizing u with
  | zero =>
    obtain ⟨hlt, -⟩ | ⟨-, hck⟩ := hu
    · omega
    · exact ⟨hd, hck⟩
  | succ n ih =>
    unfold payloadLoop
    obtain ⟨hlt, hpay⟩ | ⟨hge, hck⟩ := hu
    · rw [if_pos hlt]
      refine (readByte_stepped hs hv hp hd hpay (by simp [readDue, hpay])).andThen fun _ w ⟨hw, b, t, hans, htk⟩ => ?_
      obtain ⟨_, _, -, rfl⟩ := hans.exists_eq
      subst htk
      exact ih hw (takePayload_payloadPoint b hpay) (by simp only [takeByte, takePayload_idx, takePayload_len]; omega)
    · rw [if_neg hge]
      exact ⟨hd, hck⟩

theorem readPayload_stepped (hd : Decoding s v u) (hu : payloadPoint u) :
    (readPayload u).SteppedFrom True s fun _ w => Decoding s v w ∧ w.frm.ph = .ck :=
  (payloadLoop_stepped hs hv hp _ hd hu rfl).andThen fun _ w ⟨hw, hck⟩ => by
    rw [setFrmPh_self hck]
    exact ⟨hw, hck⟩

/-- `READ_ALGO`, performed only where the profile has the byte (43_framer.md R158). -/
theorem readAlgo_stepped (hd : Decoding s v u) (hu : u.frm.ph = if u.profile.hasAlgo then .algo else .len) :
    (if u.profile.hasAlgo then readAlgo u else .ok () u).SteppedFrom True s fun _ w =>
      Decoding s v w ∧ w.frm.ph = .len := by
  by_cases ha : u.profile.hasAlgo = true
  · rw [if_pos ha] at hu ⊢
    rw [readAlgo, if_pos ha]
    exact (readByte_stepped hs hv hp hd hu (by simp [readDue, hu, ha])).mono fun _ w ⟨hw, _, _, _, htk⟩ =>
      ⟨hw, by rw [htk]; rfl⟩
  · rw [if_neg ha] at hu ⊢
    exact ⟨hd, hu⟩

/-- The phases after the two headers (43_framer.md R157 to R162). -/
theorem readFrame_stepped (hd : Decoding s v u) (hu : u.frm.ph = .cmd) :
    (readFrame u).SteppedFrom True s (Returned s v.ccp.ph) := by
  refine (readByte_stepped hs hv hp hd hu (by simp [readDue, hu])).andThen fun _ t ⟨ht, b, _, _, htk⟩ => ?_
  refine (readAlgo_stepped hs hv hp ht (by rw [htk]; rfl)).andThen fun _ t ⟨ht, hlen⟩ => ?_
  refine (readByte_stepped hs hv hp ht hlen (by simp [readDue, hlen])).andThen fun _ t ⟨ht, b, t', _, htk⟩ => ?_
  have hpay : payloadPoint t := by rw [htk]; exact takeLen_payloadPoint b t'
  refine (readPayload_stepped hs hv hp ht hpay).andThen fun _ t ⟨ht, hck⟩ => ?_
  have hread := (readByte_stepped hs hv hp ht hck (by simp [readDue, hck])).andThen
    (f := fun _ w => returnResult w) fun _ w ⟨hw, _, _, _, htk⟩ => returnResult_stepped hv hw (by rw [htk]; rfl)
  simpa only [readCk, Eff.andThen_assoc, Eff.andThen_ok, takeByte] using hread

/-- The steps from the first read of a decode make `FRAME_DECODE`, and what its caller does with the result. -/
theorem frameDecode_stepped (hsv : Reaches s (frameStart v)) : (frameDecode v).SteppedFrom True s (Returned s v.ccp.ph) := by
  have hstart : Decoding s v (frameStart v) :=
    ⟨⟨⟨⟨rfl, rfl, rfl⟩, rfl, rfl⟩, rfl, rfl⟩, fun w hw => by cases hw; exact hsv⟩
  refine (searchLoop_stepped hs hv hp (loop := searchH1Loop) (next := .h2) (.inl rfl) (by decide) (fun _ _ => rfl)
    takeH1_searched Config.syncBudget hstart rfl (Nat.zero_lt_succ 31) rfl).andThen fun _ t ⟨ht, hph⟩ => ?_
  split
  · exact returnResult_stepped hv ht (by assumption)
  · rename_i hnd
    obtain ⟨hh2, hatt⟩ := hph.resolve_left hnd
    rw [searchH2, setFrm_h2_self hh2 (hatt rfl)]
    refine (searchLoop_stepped hs hv hp (loop := searchH2Loop) (next := .cmd) (.inr rfl) (by decide) (fun _ _ => rfl)
      takeH2_searched Config.syncBudget ht hh2 (by rw [hatt rfl]; decide) (by rw [hatt rfl]; rfl)).andThen
      fun _ u ⟨hu, hph⟩ => ?_
    split
    · exact returnResult_stepped hv hu (by assumption)
    · rename_i hnd
      exact readFrame_stepped hs hv hp hu (hph.resolve_left hnd).1

end

/-! ### The exchanges -/

/-- How a step of the handshake ends (45_camera_protocol.md R192 to R194). -/
def Answer (s : State) (ph : CcpPh) (known : Bool) (u : State) : Prop :=
  SameArbiter s u ∧ u.ccp.ph = ph ∧ Reaches s (if known then handshakeStepOk u else absentReturn u)

theorem Returned.answer {s u : State} {ph : CcpPh} {r : FrameResult} (h : Returned s ph r u)
    (hph : ph = .knockRx ∨ ph = .algRx) : Answer s ph (matchesCode r u.profile.cmdOk) u := by
  refine ⟨h.kept, h.ccpPh, h.reaches _ ?_⟩
  have hdue : protocolReturn r u
      = if matchesCode r u.profile.cmdOk then .ok () (handshakeStepOk u) else .ok () (absentReturn u) := by
    rcases hph with rfl | rfl <;> simp [protocolReturn, h.ccpPh]
  rw [hdue]
  split <;> rfl

section
variable {s v : State} (hs : Handling .camData s) (hv : SameArbiter s v)
include hs hv

/-- A request is written and its answer decoded, in the phase `ph`. -/
theorem exchange_stepped {bs : List Byte} {ph : CcpPh} (hp : ph.awaitsFrame) (hsv : Reaches s v)
    (hdue : stepCamera v = (camWrite bs v).andThen fun _ t => .ok () (frameStart (setCcpPh ph t))) :
    ((camWrite bs v).andThen fun _ t => frameDecode (setCcpPh ph t)).SteppedFrom True s (Returned s ph) := by
  refine (cameraCall_stepped hs hv hsv hdue (camWrite_call v bs)).andThen fun _ t ⟨hans, ht⟩ => ?_
  have hkeep : SameArbiter s (setCcpPh ph t) := (hv.trans hans.sameArbiter).update
  exact frameDecode_stepped hs hkeep hp (ht _ rfl)

theorem knock_stepped (hsv : Reaches s (setCcpPh .knockTx v)) :
    (knock v).SteppedFrom True s (Answer s .knockRx) := by
  have hkeep : SameArbiter s (setCcpPh .knockTx v) := hv.update
  unfold knock
  rw [← Eff.andThen_assoc]
  exact (exchange_stepped hs hkeep (ph := .knockRx) trivial hsv rfl).andThen fun _ _ hu => hu.answer (.inl rfl)

/-- The select, where the profile has it (45_camera_protocol.md R194). -/
theorem algsel_stepped (hsel : v.profile.hasAlgsel = true) (hsv : Reaches s (setCcpPh .algTx v)) :
    (algsel v).SteppedFrom True s (Answer s .algRx) := by
  have hkeep : SameArbiter s (setCcpPh .algTx v) := hv.update
  unfold algsel
  rw [if_pos hsel, ← Eff.andThen_assoc]
  exact (exchange_stepped hs hkeep (ph := .algRx) trivial hsv rfl).andThen fun _ _ hu => hu.answer (.inr rfl)

end

/-- The handshake is over: the request is due, or the zero report has been returned (45_camera_protocol.md R195, R204). -/
def HandshakeOver (s u : State) : Prop :=
  SameArbiter s u ∧ Reaches s (if u.connected then setCcpPh .reqTx u else cameraReturn none u)

theorem Answer.handshakeOver {s u : State} {ph : CcpPh} {known : Bool} (h : Answer s ph known u)
    (hlast : known = true → ph = .algRx ∨ u.profile.hasAlgsel = false) : HandshakeOver s (u.setConnected known) := by
  obtain ⟨hkeep, hph, hreach⟩ := h
  refine ⟨hkeep.update, ?_⟩
  cases known with
  | false => exact hreach
  | true =>
    have hnot : ¬ (u.ccp.ph = .knockRx ∧ u.profile.hasAlgsel = true) := by
      rcases hlast rfl with rfl | hsel
      · simp [hph]
      · simp [hsel]
    simp only [if_true, handshakeStepOk, if_neg hnot] at hreach
    exact hreach

section
variable {s v : State} (hs : Handling .camData s) (hv : SameArbiter s v)
include hs hv

theorem handshake_stepped (hsv : Reaches s (setCcpPh .knockTx v)) :
    (handshake v).SteppedFrom True s fun _ => HandshakeOver s := by
  refine (knock_stepped hs hv hsv).andThen fun known u hu => ?_
  cases known with
  | false => exact hu.handshakeOver nofun
  | true =>
    rw [if_pos rfl]
    cases hsel : u.profile.hasAlgsel with
    | false =>
      simp only [algsel, hsel, Bool.false_eq_true, if_false, Eff.andThen_ok]
      exact hu.handshakeOver fun _ => .inr hsel
    | true =>
      obtain ⟨hkeep, hph, hreach⟩ := hu
      have halg : Reaches s (setCcpPh .algTx u) := by simpa [handshakeStepOk, hph, hsel] using hreach
      exact (algsel_stepped hs hkeep hsel halg).andThen fun selected w hw => hw.handshakeOver fun _ => .inl rfl

/-! ### The block request -/

/-- The loop of a flush, from the chunk that is due (44_flusher.md R181). -/
theorem flushLoop_stepped (n : Nat) (hph : v.ccp.ph = .flush) (hn : v.flu.n + n = v.profile.flushMax) (hpos : 0 < n)
    (hsv : Reaches s v) :
    (flushLoop n v).SteppedFrom True s fun _ u => SameArbiter s u ∧ Reaches s (cameraReturn none u) := by
  induction n generalizing v with
  | zero => omega
  | succ n ih =>
    have hon : flushReadsOn v := by unfold flushReadsOn; omega
    refine (cameraCall_stepped hs hv hsv (stepCamera_flush hph) (stepFlush_call hon)).andThen
      fun r t ⟨⟨hkeep, _, hccp, hcount, hnext⟩, ht⟩ => ?_
    cases r with
    | some r => exact ⟨hv.trans hkeep, ht _ rfl⟩
    | none =>
      have hlt : t.flu.n < t.profile.flushMax := hnext rfl
      rw [hkeep.profile] at hlt
      exact ih (hv.trans hkeep) (by rw [hccp, hph]) (by rw [hkeep.profile]; omega) (by omega) (ht _ rfl)

/-- The unrecognized branch (45_camera_protocol.md R200). -/
theorem flushNoBlock_stepped (hsv : Reaches s (enterFlush v)) :
    (flushNoBlock v).SteppedFrom True s fun blk u => SameArbiter s u ∧ Reaches s (cameraReturn blk u) := by
  have hkeep : SameArbiter s (enterFlush v) := hv.update
  obtain ⟨-, -, -, -, hmax, -⟩ := (profile_wf_iff v.profile).1 (hv.ready hs.1).1.2
  exact (flushLoop_stepped hs hkeep v.profile.flushMax rfl (Nat.zero_add _) hmax hsv).andThen fun _ _ hu => hu

theorem blockOrFlush_stepped {f : Frame} (off : Offsets) (hlen : f.payload.length = f.length.toNat)
    (hsv : ∀ w, blockReturn f off v = .ok () w → Reaches s w) :
    (blockOrFlush f off v).SteppedFrom True s fun blk u => SameArbiter s u ∧ Reaches s (cameraReturn blk u) := by
  unfold blockOrFlush
  unfold blockReturn at hsv
  split
  · rename_i hc
    obtain ⟨b, hb⟩ := extract_of_covers v hlen hc
    rw [if_pos hc, hb] at hsv
    rw [hb]
    exact ⟨hv.update, hsv _ rfl⟩
  · rename_i hc
    rw [if_neg hc] at hsv
    exact flushNoBlock_stepped hs hv (hsv _ rfl)

/-- The wrapped shape (45_camera_protocol.md R198, R199). -/
theorem wrappedBranch_stepped (hsv : Reaches s (frameStart (setCcpPh .nestRx v))) :
    (wrappedBranch v).SteppedFrom True s fun blk u => SameArbiter s u ∧ Reaches s (cameraReturn blk u) := by
  have hkeep : SameArbiter s (setCcpPh .nestRx v) := hv.update
  refine (frameDecode_stepped hs hkeep (by exact trivial) hsv).andThen fun r u hu => ?_
  have hreach := hu.reaches
  simp only [protocolReturn, show u.ccp.ph = .nestRx from hu.ccpPh] at hreach
  cases r with
  | syncError code => exact flushNoBlock_stepped hs hu.kept (hreach _ rfl)
  | ok g => exact blockOrFlush_stepped hs hu.kept _ (hu.length g rfl) hreach

omit hv in
theorem responseBranch_stepped {r : FrameResult} {u : State} (hu : Returned s .reqRx r u) :
    (responseBranch r u).SteppedFrom True s fun blk w => SameArbiter s w ∧ Reaches s (cameraReturn blk w) := by
  have hreach := hu.reaches
  simp only [protocolReturn, hu.ccpPh] at hreach
  cases r with
  | syncError code => exact flushNoBlock_stepped hs hu.kept (hreach _ rfl)
  | ok f =>
    unfold responseBranch
    dsimp only at hreach ⊢
    cases hc : responseClass u.profile f.command <;> simp only [hc] at hreach
    case wrapped => exact wrappedBranch_stepped hs hu.kept (hreach _ rfl)
    case direct => exact blockOrFlush_stepped hs hu.kept _ (hu.length f rfl) hreach
    case unknown => exact flushNoBlock_stepped hs hu.kept (hreach _ rfl)

theorem requestBlocks_stepped (hsv : Reaches s (setCcpPh .reqTx v)) :
    (requestBlocks v).SteppedFrom True s fun blk u => SameArbiter s u ∧ Reaches s (cameraReturn blk u) := by
  have hkeep : SameArbiter s (setCcpPh .reqTx v) := hv.update
  unfold requestBlocks
  rw [← Eff.andThen_assoc]
  exact (exchange_stepped hs hkeep (ph := .reqRx) trivial hsv rfl).andThen fun _ _ hu => responseBranch_stepped hs hu

/-- The body of the `try` of R204. -/
theorem cameraTry_stepped (hsv : Reaches s (setCcpPh (if v.connected then .reqTx else .knockTx) v)) :
    (cameraTry v).SteppedFrom True s fun blk u => SameArbiter s u ∧ Reaches s (cameraReturn blk u) := by
  have hover : (if v.connected then Eff.ok () v else handshake v).SteppedFrom True s fun _ => HandshakeOver s := by
    cases hconn : v.connected <;> simp only [hconn] at hsv
    · exact handshake_stepped hs hv hsv
    · exact ⟨hv, by simpa [hconn] using hsv⟩
  refine hover.andThen fun _ u ⟨hkeep, hreach⟩ => ?_
  cases hconn : u.connected <;> simp only [hconn] at hreach
  · exact ⟨hkeep, hreach⟩
  · exact requestBlocks_stepped hs hkeep hreach

omit hs hv in
/-- The catch of R204, which the sequencer makes around every call. -/
theorem catchCamFault_stepped {m : Eff (List Byte)}
    (hm : m.SteppedFrom True s fun bs u => SameArbiter s u ∧ Reaches s (handlerReturn bs u)) :
    (catchCamFault m).SteppedFrom False s fun bs u => SameArbiter s u ∧ Reaches s (handlerReturn bs u) := by
  cases m with
  | camFault k t => exact ⟨hm.2.1.update, hm.2.2⟩
  | ok | fatal | blocked | stop => exact hm

end

/-- The steps of a camera command (45_camera_protocol.md R204). -/
theorem cameraData_stepped {s v : State} (hs : Handling .camData s) (hv : SameArbiter s v)
    (hsv : Reaches s (dispatchEnter v)) :
    (cameraData v).SteppedFrom False s fun bs u => SameArbiter s u ∧ Reaches s (handlerReturn bs u) := by
  have hkeep : SameArbiter s (v.setCcp { v.ccp with blkValid := false }) := hv.update
  simp only [dispatchEnter, (hv.handling hs).2.2] at hsv
  refine catchCamFault_stepped ((cameraTry_stepped hs hkeep hsv).andThen fun blk u ⟨hu, hreach⟩ => ?_)
  exact ⟨hu.update, hreach⟩

/-! ## One pass of the loop -/

/-- `DISPATCH` has returned; an empty response makes no call in `A_WRITE` (46_arbiter.md R230; log 32). -/
def afterDispatch (s : State) : State := setArbPh (if s.arb.respLen = 0 then .settle else .write) s

theorem handlerReturn_eq (bs : List Byte) (s : State) : handlerReturn bs s = afterDispatch (loadResp bs s) := by
  cases bs <;> rfl

/-- The engine is in the phase `ph` of the loop, in the mode `m`, and its call is due. -/
def AtPhase (ph : ArbPh) (m : Mode) (s : State) : Prop := Ready s ∧ s.arb.ph = ph ∧ s.arb.mode = m

theorem SameArbiter.atPhase {ph : ArbPh} {m : Mode} {s t : State} (h : SameArbiter s t) (hs : AtPhase ph m s) : AtPhase ph m t :=
  ⟨h.ready hs.1, by rw [h.arb]; exact hs.2.1, by rw [h.arb]; exact hs.2.2⟩

theorem AtPhase.setArbPh {ph : ArbPh} {m : Mode} {s : State} (h : AtPhase ph m s) (ph' : ArbPh) :
    AtPhase ph' m (setArbPh ph' s) := ⟨h.1, rfl, h.2.2⟩

theorem SameContext.ready {s t : State} (h : SameContext s t) (hs : Ready s) (hh : t.arb.halt = s.arb.halt) : Ready t :=
  ⟨h.running hs.1, hh.trans hs.2.1, h.stopping.trans hs.2.2⟩

section
variable {s v : State} (hsv : Reaches s v)
include hsv

theorem setRx_stepped (hv : Ready v) (hph : v.arb.ph = .setRx) :
    (setRx v).SteppedFrom False s fun _ t => AtPhase .setRx .receive t ∧ Reaches s (setArbPh .waitCmd t) :=
  (loopCall_stepped hsv hv (by simp only [loopCall, hph]) (setRx_call False)).mono fun _ _ ⟨⟨hctx, harb, _⟩, ht⟩ =>
    ⟨⟨hctx.ready hv (by rw [harb]), by rw [harb, ← hph], by rw [harb]⟩, ht⟩

theorem waitCmd_stepped (hv : AtPhase .waitCmd .receive v) :
    (waitCmd v).SteppedFrom False s fun _ t => AtPhase .waitCmd .receive t ∧ Reaches s (setArbPh .setTx t) := by
  obtain ⟨hready, hph, hmode⟩ := hv
  exact (loopCall_stepped hsv hready (by simp only [loopCall, hph]) (waitCmd_call False hmode)).mono
    fun _ _ ⟨⟨hctx, ⟨_, harb⟩, _⟩, ht⟩ =>
      ⟨⟨hctx.ready hready (by rw [harb]), by rw [harb, ← hph], by rw [harb, ← hmode]⟩, ht⟩

theorem setTx_stepped (hv : AtPhase .setTx .receive v) :
    (setTx v).SteppedFrom False s fun _ t =>
      AtPhase .setTx .transmit t ∧ Reaches s (dispatchEnter (setArbPh .dispatch t)) := by
  obtain ⟨hready, hph, -⟩ := hv
  exact (loopCall_stepped hsv hready (by simp only [loopCall, hph]) (setTx_call False)).mono
    fun _ _ ⟨⟨hctx, harb, _⟩, ht⟩ =>
      ⟨⟨hctx.ready hready (by rw [harb]), by rw [harb, ← hph], by rw [harb]⟩, ht⟩

theorem writeResp_stepped (hv : AtPhase .write .transmit v) :
    (writeResp v).SteppedFrom False s fun _ t => AtPhase .write .transmit t ∧ Reaches s (setArbPh .settle t) := by
  obtain ⟨hready, hph, hmode⟩ := hv
  exact (loopCall_stepped hsv hready (by simp only [loopCall, hph]) (writeResp_call False hmode)).mono
    fun _ _ ⟨hkeep, ht⟩ => ⟨hkeep.atPhase ⟨hready, hph, hmode⟩, ht⟩

theorem txSettle_stepped (hv : AtPhase .settle .transmit v) :
    (txSettle v).SteppedFrom False s fun _ t => Reaches s (setArbPh .setRx t) := by
  obtain ⟨hready, hph, -⟩ := hv
  exact (loopCall_stepped hsv hready (by simp only [loopCall, hph]) (txSettle_call False)).mono fun _ _ ⟨_, ht⟩ => ht

end

/-- A handler's response is loaded where the handler has returned (46_arbiter.md R225). -/
theorem handler_stepped {md : Mode} {s : State} {m : Eff (List Byte)} (hs : AtPhase .dispatch md s)
    (hm : m.SteppedFrom False s fun bs u => SameArbiter s u ∧ Reaches s (handlerReturn bs u)) :
    (m.andThen fun bs u => .ok () (loadResp bs u)).SteppedFrom False s fun _ t =>
      AtPhase .dispatch md t ∧ Reaches s (afterDispatch t) :=
  hm.andThen fun bs u ⟨hkeep, hreach⟩ => ⟨hkeep.atPhase hs, by rw [← handlerReturn_eq]; exact hreach⟩

/-- The steps from a handler's first point make `DISPATCH` (46_arbiter.md R225). -/
theorem dispatch_stepped {md : Mode} {s : State} (hs : AtPhase .dispatch md s) :
    (dispatch s).SteppedFrom False (dispatchEnter s) fun _ t =>
      AtPhase .dispatch md t ∧ Reaches (dispatchEnter s) (afterDispatch t) := by
  have henter := dispatchEnter_sameArbiter s
  have hstart := henter.atPhase hs
  have hcmd {c : UplinkCmd} (hc : uplinkCmd s.arb.cmd = c) : Handling c (dispatchEnter s) :=
    henter.handling ⟨hs.1, hs.2.1, hc⟩
  have hrefl := Reaches.refl (dispatchEnter s)
  unfold dispatch
  cases hc : uplinkCmd s.arb.cmd with
  | sigLo =>
    refine handler_stepped hstart (signal_stepped (hcmd hc) (.inl rfl) false henter.symm ?_)
    simpa [dispatchEnter, hc] using hrefl
  | sigHi =>
    refine handler_stepped hstart (signal_stepped (hcmd hc) (.inr rfl) true henter.symm ?_)
    simpa [dispatchEnter, hc] using hrefl
  | camData => exact handler_stepped hstart (cameraData_stepped (hcmd hc) henter.symm hrefl)
  | unrecognized =>
    have hself : dispatchEnter s = s := by simp [dispatchEnter, hc]
    rw [hself]
    refine ⟨hs, reaches_of_ok hs.1 ?_⟩
    simp only [loopCall, hs.2.1, stepHandler, hc]
    rfl

/-- `WRITE_RESP` after `DISPATCH`: the empty response is no step (46_arbiter.md R230; log 32). -/
theorem writeAfterDispatch_stepped {s u : State} (hu : AtPhase .dispatch .transmit u) (hsu : Reaches s (afterDispatch u)) :
    (writeResp (setArbPh .write u)).SteppedFrom False s fun _ t =>
      AtPhase .write .transmit t ∧ Reaches s (setArbPh .settle t) := by
  by_cases hlen : u.arb.respLen = 0
  · simp only [afterDispatch, hlen, if_true] at hsu
    simp only [writeResp, setArbPh_arb, hlen, Nat.lt_irrefl, if_false]
    exact ⟨hu.setArbPh .write, hsu⟩
  · simp only [afterDispatch, hlen, if_false] at hsu
    exact writeResp_stepped hsu (hu.setArbPh .write)

/-- The steps from the top of the loop make one pass of it (46_arbiter.md R221). -/
theorem arbCycle_stepped {s : State} (hs : Ready s) (hph : s.arb.ph = .setRx) :
    (arbCycle s).SteppedFrom False s fun _ t => Reaches s t := by
  have hself : setArbPh .setRx s = s := by rw [← hph]; rfl
  unfold arbCycle
  rw [hself]
  refine (setRx_stepped (.refl s) hs hph).andThen fun _ t ⟨ht, hst⟩ => ?_
  refine (waitCmd_stepped hst (ht.setArbPh _)).andThen fun _ t ⟨ht, hst⟩ => ?_
  refine (setTx_stepped hst (ht.setArbPh _)).andThen fun _ t ⟨ht, hst⟩ => ?_
  refine ((dispatch_stepped (ht.setArbPh _)).after hst).andThen fun _ t ⟨ht, hdt⟩ => ?_
  refine (writeAfterDispatch_stepped ht (hst.trans hdt)).andThen fun _ t ⟨ht, hst⟩ => ?_
  exact (txSettle_stepped hst (ht.setArbPh _)).andThen fun _ t hst => hst

/-- Where the steps follow an operation to its return, they end where its outcome is. -/
theorem Eff.SteppedFrom.close {s : State} {m : Eff Unit} (h : m.SteppedFrom False s fun _ t => Reaches s t) :
    ∃ t, m.close = .next t ∧ Reaches s t := by
  cases m with
  | ok _ t => exact ⟨t, rfl, h⟩
  | camFault => exact h.1.elim
  | fatal c t => exact ⟨takeFatal c t, rfl, h⟩
  | blocked t => exact ⟨t, rfl, h⟩
  | stop => exact h.elim

/-- Settles O57: a pass of the loop, followed step by step. -/
theorem stepsRefineTheCycle : Obligations.StepsRefineTheCycle := by
  intro s hr hh hst hph
  obtain ⟨t, hclose, n, hn⟩ := (arbCycle_stepped ⟨hr, hh, hst⟩ hph).close
  exact ⟨n, t, hclose, hn⟩

end Sys2Proof.Machine
end

section
/-! PROOFS. The family 20_memory.md, first part: every step keeps the invariants of the trace. They look at the events of the
uplink and the direction pin only (`traceAt_cons_of_off`); a handler's call makes none (`stepHandler_offUplink`), and each of
the arbiter's own calls makes one that its position allows, or none (`loopCall_traceAt`). -/

namespace Sys2Proof.Machine

/-! ## The trace invariant of a position -/

/-- `TraceInv` in terms of the transmit level, the position and the trace. -/
def traceAt (tx : Bool) (ph : ArbPh) (tr : List Event) : Prop :=
  traceOk tx tr = true
  ∧ match ph with
    | .setRx => (readsSinceTx tx tr).getD 0 = 0
    | .waitCmd => lastDir tr = some (!tx) ∧ (readsSinceTx tx tr).getD 0 = 0
    | .setTx => (readsSinceTx tx tr).getD 1 = 1
    | .dispatch | .write => lastDir tr = some tx ∧ writesSinceDir tr = 0 ∧ readsSinceTx tx tr = some 0
    | .settle => readsSinceTx tx tr = some 0
    | .halted => True

theorem traceInv_iff (s : State) : TraceInv s ↔ traceAt s.profile.dirTxLevel s.arb.ph s.trace := by
  unfold traceAt
  constructor
  · rintro ⟨hok, hrx, hwait, htx, hdisp, hsettle⟩
    refine ⟨hok, ?_⟩
    cases hph : s.arb.ph with
    | setRx => exact hrx hph
    | waitCmd => exact hwait hph
    | setTx => exact htx hph
    | dispatch => exact hdisp (.inl hph)
    | write => exact hdisp (.inr hph)
    | settle => exact hsettle hph
    | halted => trivial
  · rintro ⟨hok, hpos⟩
    cases hph : s.arb.ph <;> constructor <;> simp_all

/-- An event off the uplink and the direction pin leaves the invariant alone. -/
theorem traceAt_cons_of_off {tx : Bool} {ph : ArbPh} {e : Event} (he : e.isUplink = false) (tr : List Event) :
    traceAt tx ph (e :: tr) ↔ traceAt tx ph tr := by
  cases e with
  | upRead | upWrite => cases he
  | pin p l =>
    cases p with
    | dir => cases he
    | muxReset | muxAdv => rfl
  | camRead | camWrite | camFault | analog | sleep | diag | fatal => rfl

theorem traceAt_append_of_off {tx : Bool} {ph : ArbPh} {es : List Event} (hes : ∀ e ∈ es, e.isUplink = false)
    (tr : List Event) : traceAt tx ph (es ++ tr) ↔ traceAt tx ph tr := by
  induction es with
  | nil => rfl
  | cons e es ih =>
    rw [List.forall_mem_cons] at hes
    rw [List.cons_append, traceAt_cons_of_off hes.1, ih hes.2]

theorem traceAt.halted {tx : Bool} {ph : ArbPh} {tr : List Event} (h : traceAt tx ph tr) : traceAt tx .halted tr :=
  ⟨h.1, trivial⟩

/-! ## What a handler adds to the trace -/

/-- From `s` to `t` the trace grows only by events off the uplink and the direction pin. -/
def OffUplink (s t : State) : Prop := ∃ es : List Event, t.trace = es ++ s.trace ∧ ∀ e ∈ es, e.isUplink = false

theorem OffUplink.of_eq {s t : State} (h : t.trace = s.trace) : OffUplink s t := ⟨[], h, nofun⟩

theorem OffUplink.of_event {s t : State} (e : Event) (h : t.trace = e :: s.trace) (he : e.isUplink = false) : OffUplink s t :=
  ⟨[e], h, by simpa using he⟩

theorem OffUplink.trans {s t u : State} (h : OffUplink s t) (g : OffUplink t u) : OffUplink s u := by
  obtain ⟨es, hes, hoff⟩ := h
  obtain ⟨es', hes', hoff'⟩ := g
  exact ⟨es' ++ es, by rw [hes', hes, List.append_assoc], fun e he => (List.mem_append.1 he).elim (hoff' e) (hoff e)⟩

theorem OffUplink.traceAt_iff {s t : State} (h : OffUplink s t) (tx : Bool) (ph : ArbPh) :
    traceAt tx ph t.trace ↔ traceAt tx ph s.trace := by
  obtain ⟨es, hes, hoff⟩ := h
  rw [hes, traceAt_append_of_off hoff]

theorem Eff.offUplink_andThen {α β : Type} {s : State} {m : Eff α} {f : α → State → Eff β} (hm : m.Ends (OffUplink s))
    (hf : ∀ a t, (f a t).Ends (OffUplink t)) : (m.andThen f).Ends (OffUplink s) :=
  hm.andThen (fun _ h => h) fun a t h => (hf a t).mono fun _ h' => h.trans h'

/-- What follows a call up to the next one makes no event. -/
theorem Eff.Quiet.offUplink {s : State} {m : Eff Unit} (h : m.Quiet s) : m.Ends (OffUplink s) := by
  cases m with
  | ok _ t => exact .of_eq h.1
  | camFault | fatal | blocked | stop => exact h.elim

section
variable (s : State)

theorem pinSet_offUplink {pin : Pin} (hpin : pin ≠ .dir) (l : Bool) : (pinSet pin l s).Ends (OffUplink s) := by
  rcases pinSet_cases pin l s with h | h <;> rw [h]
  · refine .of_event _ rfl ?_
    cases pin with
    | dir => exact absurd rfl hpin
    | muxReset | muxAdv => rfl
  · exact .of_event _ rfl rfl

theorem sleep_offUplink (d : Nat) : (sleep d s).Ends (OffUplink s) := by
  rcases sleep_cases d s with h | h <;> rw [h] <;> exact .of_event _ rfl rfl

theorem analogRead_offUplink : (analogRead s).Ends (OffUplink s) := by
  rcases analogRead_cases s with ⟨v, adc, n, h⟩ | ⟨adc, h⟩ <;> rw [h] <;> exact .of_event _ rfl rfl

theorem camWrite_offUplink (bs : List Byte) : (camWrite bs s).Ends (OffUplink s) := by
  rcases camWrite_cases bs s with h | ⟨k, h⟩ <;> rw [h] <;> exact .of_event _ rfl rfl

theorem camRead_offUplink (n : Nat) : (camRead n s).Ends (OffUplink s) := by
  rcases camRead_cases n s with h | ⟨f, h⟩ <;> rw [h] <;> exact .of_event _ rfl rfl

theorem muxResetAssert_offUplink : (muxResetAssert s).Ends (OffUplink s) :=
  Eff.offUplink_andThen (pinSet_offUplink s (pin := .muxReset) nofun _) fun _ _ => .of_eq rfl

theorem muxResetRelease_offUplink : (muxResetRelease s).Ends (OffUplink s) :=
  Eff.offUplink_andThen (pinSet_offUplink s (pin := .muxReset) nofun _) fun _ _ => .of_eq rfl

theorem muxAdvanceAssert_offUplink : (muxAdvanceAssert s).Ends (OffUplink s) :=
  Eff.offUplink_andThen (pinSet_offUplink s (pin := .muxAdv) nofun _) fun _ _ => .of_eq rfl

theorem muxAdvanceRelease_offUplink : (muxAdvanceRelease s).Ends (OffUplink s) :=
  Eff.offUplink_andThen (pinSet_offUplink s (pin := .muxAdv) nofun _) fun _ _ => .of_eq rfl

theorem sample_offUplink : (sample s).Ends (OffUplink s) :=
  Eff.offUplink_andThen (analogRead_offUplink s) fun _ _ => .of_eq rfl

theorem stepScan_offUplink : (stepScan s).Ends (OffUplink s) := by
  unfold stepScan
  cases s.scn.ph with
  | reset =>
    dsimp only
    split
    · exact Eff.offUplink_andThen (muxResetRelease_offUplink s) fun _ _ => .of_eq rfl
    · exact muxResetAssert_offUplink s
  | adv =>
    dsimp only
    split
    · exact Eff.offUplink_andThen (muxAdvanceRelease_offUplink s) fun _ _ => .of_eq rfl
    · exact muxAdvanceAssert_offUplink s
  | settleClk | settleAdc | interch => exact Eff.offUplink_andThen (sleep_offUplink s _) fun _ _ => .of_eq rfl
  | sample =>
    refine Eff.offUplink_andThen (sample_offUplink s) fun _ t => ?_
    split <;> exact .of_eq rfl
  | idle | done => trivial

end

theorem takeByte_trace (ph : FrmPh) (b : Byte) (s : State) : (takeByte ph b s).trace = s.trace := by
  cases ph with
  | h1 => exact (takeH1_updated b s).1.1
  | h2 => exact (takeH2_updated b s).1.1
  | cmd | algo | len | pay | ck | idle | done => rfl

theorem stepFrame_offUplink {s : State} (hp : s.ccp.ph.awaitsFrame) (h : readDue s) :
    (stepFrame s).Ends (OffUplink s) := by
  rw [stepFrame_eq h]
  rcases nextByte_cases s with ⟨b, hb⟩ | ⟨f, hb⟩ <;> rw [hb]
  · rw [Eff.andThen_ok]
    generalize hu : State.log _ _ = u
    have hev : OffUplink s u := .of_event (.camRead 1 [b]) (by rw [← hu]; rfl) rfl
    have hccp : (takeByte s.frm.ph b u).ccp = s.ccp := by
      rw [(takeByte_framerOnly s.frm.ph b u).sameExchange.ccp, ← hu]; rfl
    exact (decodeReturn_quiet (by rw [hccp]; exact hp)).offUplink.mono fun _ h' =>
      hev.trans ((OffUplink.of_eq (takeByte_trace _ b u)).trans h')
  · exact .of_event _ rfl rfl

theorem stepFlush_offUplink (s : State) : (stepFlush s).Ends (OffUplink s) := by
  unfold stepFlush
  split
  · exact Eff.offUplink_andThen (camRead_offUplink s _) fun _ _ => .of_eq rfl
  · exact .of_eq rfl

theorem stepCamera_offUplink {s : State} (h : cameraPoint s) : (stepCamera s).Ends (OffUplink s) := by
  cases hph : s.ccp.ph with
  | knockRx | algRx | reqRx | nestRx =>
    obtain ⟨hp, hf⟩ := h.awaiting (by rw [hph]; trivial)
    rw [stepCamera_of_awaitsFrame hp.awaitsFrame]
    exact stepFrame_offUplink hp.awaitsFrame hf.readDue
  | knockTx | algTx | reqTx =>
    simp only [stepCamera, hph]
    exact Eff.offUplink_andThen (camWrite_offUplink s _) fun _ _ => .of_eq rfl
  | flush =>
    rw [stepCamera_flush hph]
    refine Eff.offUplink_andThen (stepFlush_offUplink s) fun r t => ?_
    cases r <;> exact .of_eq rfl
  | idle | done => simp [cameraPoint, hph] at h

theorem caughtCamera_offUplink {s : State} {m : Eff Unit} (h : m.Ends (OffUplink s)) : (caughtCamera m).Ends (OffUplink s) := by
  cases m with
  | ok | camFault | fatal | blocked | stop => exact h

/-- A handler neither uses the uplink nor sets the direction pin (46_arbiter.md R220). -/
theorem stepHandler_offUplink {s : State} (h : handlerPoint s) : (stepHandler s).Ends (OffUplink s) := by
  unfold handlerPoint at h
  unfold stepHandler
  cases hc : uplinkCmd s.arb.cmd with
  | sigLo | sigHi => exact stepScan_offUplink s
  | camData => exact caughtCamera_offUplink (stepCamera_offUplink (by simpa [hc] using h))
  | unrecognized => exact .of_event _ rfl rfl

/-! ## What the arbiter's own calls add -/

/-- Where the effect returns, `q` holds. -/
def Eff.Returns {α : Type} (q : α → State → Prop) : Eff α → Prop
  | .ok a t => q a t
  | .camFault _ _ | .fatal _ _ | .blocked _ | .stop _ => True

theorem Eff.Returns.andThen {α β : Type} {q : α → State → Prop} {r : β → State → Prop} {m : Eff α}
    {f : α → State → Eff β} (hm : m.Returns q) (hf : ∀ a t, q a t → (f a t).Returns r) : (m.andThen f).Returns r := by
  cases m with
  | ok a t => exact hf a t hm
  | camFault | fatal | blocked | stop => trivial

section
variable (s : State)

theorem pinSet_returns (pin : Pin) (l : Bool) : (pinSet pin l s).Returns fun _ t => t.trace = .pin pin l :: s.trace := by
  rcases pinSet_cases pin l s with h | h <;> rw [h]
  · rfl
  · trivial

theorem upRead_returns (hm : s.arb.mode = .receive) :
    (upRead s).Returns fun b t => t.trace = .upRead b :: s.trace := by
  rcases upRead_cases hm with ⟨b, rest, -, h⟩ | ⟨-, h⟩ | ⟨rest, -, h⟩ <;> rw [h]
  · rfl
  all_goals trivial

theorem upWrite_returns (bs : List Byte) (hm : s.arb.mode = .transmit) :
    (upWrite bs s).Returns fun _ t => t.trace = .upWrite bs :: s.trace := by
  cases h : s.env.upWrFails
  · rw [upWrite_ok hm h]; rfl
  · rw [upWrite_fatal hm h]; trivial

theorem setRx_returns : (setRx s).Returns fun _ t => t.trace = .pin .dir (!s.profile.dirTxLevel) :: s.trace :=
  (pinSet_returns s _ _).andThen fun _ _ h => h

theorem waitCmd_returns (hm : s.arb.mode = .receive) :
    (waitCmd s).Returns fun _ t => ∃ b, t.trace = .upRead b :: s.trace :=
  (upRead_returns s hm).andThen fun b _ h => ⟨b, h⟩

theorem setTx_returns : (setTx s).Returns fun _ t => t.trace = .pin .dir s.profile.dirTxLevel :: s.trace :=
  (pinSet_returns s _ _).andThen fun _ _ h => h

theorem writeResp_returns (hm : s.arb.mode = .transmit) (hpos : 0 < s.arb.respLen) :
    (writeResp s).Returns fun _ t => t.trace = .upWrite (respBytes s) :: s.trace := by
  simpa [writeResp, hpos] using upWrite_returns s (respBytes s) hm

end

/-! ## The events that the positions allow (20_memory.md R70) -/

section
variable {tx : Bool} {tr : List Event}

/-- The receive level is not the transmit level: it is always allowed, and the count of the reads goes on. -/
theorem traceAt_setRx (h : traceAt tx .setRx tr) : traceAt tx .waitCmd (.pin .dir (!tx) :: tr) := by
  obtain ⟨hok, hreads⟩ := h
  cases tx <;> simp_all [traceAt, traceOk, lastDir, readsSinceTx]

/-- The one read of a cycle. -/
theorem traceAt_waitCmd (b : Byte) (h : traceAt tx .waitCmd tr) : traceAt tx .setTx (.upRead b :: tr) := by
  obtain ⟨hok, hdir, hreads⟩ := h
  refine ⟨by simp [traceOk, hok, hdir], ?_⟩
  cases hr : readsSinceTx tx tr <;> simp_all [readsSinceTx]

/-- The transmit level follows exactly one read, and begins the count of the writes. -/
theorem traceAt_setTx (h : traceAt tx .setTx tr) : traceAt tx .dispatch (.pin .dir tx :: tr) := by
  obtain ⟨hok, hreads⟩ := h
  exact ⟨by simp [traceOk, hok, hreads], rfl, rfl, by simp [readsSinceTx]⟩

/-- The one write of a cycle. -/
theorem traceAt_write (bs : List Byte) (h : traceAt tx .write tr) : traceAt tx .settle (.upWrite bs :: tr) := by
  obtain ⟨hok, hdir, hwrites, hreads⟩ := h
  exact ⟨by simp [traceOk, hok, hdir, hwrites], hreads⟩

/-- An empty response is not written (46_arbiter.md R230). -/
theorem traceAt.settle_of_dispatch (h : traceAt tx .dispatch tr) : traceAt tx .settle tr := by
  obtain ⟨hok, -, -, hreads⟩ := h
  exact ⟨hok, hreads⟩

theorem traceAt.setRx_of_settle (h : traceAt tx .settle tr) : traceAt tx .setRx tr := by
  obtain ⟨hok, hreads⟩ := h
  exact ⟨hok, by simp [hreads]⟩

end

/-! ## The step -/

/-- A handler's step leaves the position in the handler, or at the writing of the response. -/
theorem traceAt_of_handlerWent {p : State → Prop} {tx : Bool} {s t : State} (hph : s.arb.ph = .dispatch)
    (hwent : HandlerWent p s t) (h : traceAt tx .dispatch t.trace) : traceAt tx t.arb.ph t.trace := by
  obtain ⟨hkeep, -⟩ | ⟨bs, u, -, -, rfl⟩ := hwent
  · rwa [hkeep.arb, hph]
  · rw [handlerReturn_ph]
    split
    · exact h.settle_of_dispatch
    · exact h

/-- A call of the loop keeps the invariant of the trace where it returns. -/
theorem loopCall_traceAt {s : State} (hw : s.profile.wf = true) (hi : Inv s)
    (ht : traceAt s.profile.dirTxLevel s.arb.ph s.trace) :
    (loopCall s).Returns fun _ t => traceAt s.profile.dirTxLevel t.arb.ph t.trace := by
  unfold loopCall
  cases hph : s.arb.ph with
  | setRx =>
    rw [hph] at ht
    refine (setRx_returns s).andThen fun _ t (htr : t.trace = _) => ?_
    show traceAt _ .waitCmd t.trace
    exact htr ▸ traceAt_setRx ht
  | waitCmd =>
    rw [hph] at ht
    refine (waitCmd_returns s (hi.wait_receives hph).1).andThen fun _ t ⟨b, htr⟩ => ?_
    show traceAt _ .setTx t.trace
    exact htr ▸ traceAt_waitCmd b ht
  | setTx =>
    rw [hph] at ht
    refine (setTx_returns s).andThen fun _ t (htr : t.trace = _) => ?_
    have hkeep := dispatchEnter_sameArbiter (setArbPh .dispatch t)
    have htrace := (dispatchEnter_updated (setArbPh .dispatch t)).1
    show traceAt _ (dispatchEnter _).arb.ph (dispatchEnter _).trace
    rw [hkeep.arb, htrace]
    show traceAt _ .dispatch t.trace
    exact htr ▸ traceAt_setTx ht
  | dispatch =>
    rw [hph] at ht
    obtain ⟨-, hpt⟩ := hi.dispatch_transmits hph
    obtain ⟨-, -, -, -, hmax, -⟩ := (profile_wf_iff s.profile).1 hw
    have hwent := stepHandler_call hmax hpt
    have hoff := stepHandler_offUplink hpt
    show (stepHandler s).Returns _
    cases hm : stepHandler s with
    | ok a t =>
      rw [hm] at hwent hoff
      exact traceAt_of_handlerWent hph hwent ((hoff.traceAt_iff _ _).2 ht)
    | camFault | fatal | blocked | stop => trivial
  | write =>
    rw [hph] at ht
    obtain ⟨⟨hmode, -⟩, hlen, hcmd⟩ := hi.write_transmits hph
    have hpos : 0 < s.arb.respLen := by rw [hlen]; exact respSize_pos hcmd
    refine (writeResp_returns s hmode hpos).andThen fun _ t (htr : t.trace = _) => ?_
    show traceAt _ .settle t.trace
    exact htr ▸ traceAt_write _ ht
  | settle =>
    rw [hph] at ht
    have hsleep := sleep_offUplink s s.profile.tTxSettle
    show ((sleep s.profile.tTxSettle s).andThen _).Returns _
    cases hm : sleep s.profile.tTxSettle s with
    | ok a t =>
      rw [hm] at hsleep
      exact ((hsleep.traceAt_iff _ _).2 ht).setRx_of_settle
    | camFault | fatal | blocked | stop => trivial
  | halted => trivial

/-- `FATAL_STOP` keeps the position until the halt, and makes no event before its restoring `PinSet` (46_arbiter.md R232). -/
theorem traceAt_enterFatal {tx : Bool} (c : FatalCause) {s : State} (h : traceAt tx s.arb.ph s.trace) :
    traceAt tx (enterFatal c s).arb.ph (enterFatal c s).trace := by
  cases hm : s.arb.mode with
  | receive => rw [enterFatal_of_receive c hm, takeFatal_of_receive c hm]; exact h.halted
  | transmit => rw [enterFatal_of_transmit c hm]; exact h

theorem enterFatal_profile (c : FatalCause) (s : State) : (enterFatal c s).profile = s.profile := by
  cases hm : s.arb.mode with
  | receive => rw [enterFatal_of_receive c hm]; exact (takeFatal_sameContext c s).profile
  | transmit => rw [enterFatal_of_transmit c hm]; rfl

/-- The restoring `PinSet` may come anywhere: it drives the receive level, or fails. -/
theorem traceAt_leaveFatal (c : FatalCause) {s : State} {ph : ArbPh} (hm : s.arb.mode = .transmit)
    (h : traceAt s.profile.dirTxLevel ph s.trace) :
    traceAt s.profile.dirTxLevel .halted (leaveFatal c s).trace := by
  obtain ⟨e, he, rfl | rfl⟩ := leaveFatal_trace c hm
  · obtain ⟨hok, -⟩ := h
    exact ⟨by simp [he, traceOk, hok], trivial⟩
  · rw [he, traceAt_cons_of_off rfl]
    exact h.halted

/-- Settles O53: the restoring `PinSet` of a `FATAL_STOP` under way is allowed anywhere, a call of the loop that returns makes an
event its position allows, and one that fails makes an event that the invariant does not look at. -/
theorem traceInvIsKept : Obligations.TraceInvIsKept := by
  intro s t hr hi ht hstep
  rw [traceInv_iff] at ht ⊢
  obtain ⟨hh, hw, ⟨c, hs, rfl⟩ | ⟨hs, hclose⟩⟩ := step_cases hr.1 hstep
  · obtain ⟨hmode, -⟩ := hi.stopping_transmits (by simp [hs])
    have hprofile : (leaveFatal c s).profile = s.profile := (takeFatal_sameContext c (s.setStopping none)).profile
    rw [hprofile]
    exact traceAt_leaveFatal c hmode ht
  · have hone := loopCall_oneCall hi hh
    have hcall := loopCall_call hw hi hh hs
    have hret := loopCall_traceAt hw hi ht
    cases hm : loopCall s with
    | ok a u =>
      rw [hm] at hcall hret hclose
      cases hclose
      rw [hcall.1.profile]
      exact hret
    | fatal c u =>
      rw [hm] at hone hcall hclose
      cases hclose
      obtain ⟨htr, -, harb⟩ := hone
      rw [enterFatal_profile, hcall.sameArbiter.profile]
      refine traceAt_enterFatal c ?_
      rw [htr, harb, traceAt_cons_of_off rfl]
      exact ht
    | blocked u =>
      rw [hm] at hcall hclose
      cases hclose
      cases hcall
      exact ht
    | camFault | stop => rw [hm] at hcall; exact absurd hcall (by simp [Eff.CallFrom])

end Sys2Proof.Machine
end

section
/-! PROOFS. The family 20_memory.md, second part: the primitives called as operations. Each operation is its primitive, closed
or answered (`exec_…`), and the equations of the primitive's endings (Laws/Ops.lean) give each clause. -/

namespace Sys2Proof.Machine

/-! ## The operations -/

section
variable (s : State)
theorem exec_upRead : exec .upRead s = (upRead s).answer .byte := rfl
theorem exec_waitCmd : exec .waitCmd s = (waitCmd s).close := rfl
theorem exec_writeResp : exec .writeResp s = (writeResp s).close := rfl
theorem exec_pinSet (pin : Pin) (l : Bool) : exec (.pinSet pin l) s = (pinSet pin l s).close := rfl
theorem exec_analogRead : exec .analogRead s = (analogRead s).answer .sample := rfl
theorem exec_sleep (d : Nat) : exec (.sleep d) s = (sleep d s).close := rfl
end

theorem upWriteLength_iff (n : Nat) : upWriteLength n = true ↔ n ∈ [2, 3, 8, 9] := by
  simp [upWriteLength, or_assoc]

theorem camReadWidth_iff (n : Nat) : camReadWidth n = true ↔ n ∈ [1, 4] := by
  simp [camReadWidth]

section
variable {s : State} {bs : List Byte} {n : Nat}

theorem exec_upWrite (h : bs.length ∈ [2, 3, 8, 9]) : exec (.upWrite bs) s = (upWrite bs s).close :=
  if_pos ((upWriteLength_iff _).2 h)

theorem exec_upWrite_refused (h : bs.length ∉ [2, 3, 8, 9]) : exec (.upWrite bs) s = .refused .operandOutOfDomain :=
  if_neg (mt (upWriteLength_iff _).1 h)

theorem exec_camRead (h : n ∈ [1, 4]) : exec (.camRead n) s = (camRead n s).answer .bytes :=
  if_pos ((camReadWidth_iff n).2 h)

theorem exec_camRead_refused (h : n ∉ [1, 4]) : exec (.camRead n) s = .refused .operandOutOfDomain :=
  if_neg (mt (camReadWidth_iff n).1 h)

theorem exec_camWrite (h : bs ≠ []) : exec (.camWrite bs) s = (camWrite bs s).close := if_pos h

end

/-! ## The uplink -/

/-- Settles O4: the three endings of `UpRead`, and what `WAIT_CMD` makes of each. -/
theorem oneByteIsReadFromTheUplink : Obligations.OneByteIsReadFromTheUplink := by
  intro s hm
  refine ⟨fun b rest h => ?_, fun rest h i hi => ?_, fun h => ?_⟩
  · rw [exec_upRead, exec_waitCmd, waitCmd, upRead_byte hm h]
    exact ⟨rfl, rfl⟩
  · obtain rfl | rfl : i = .upRead ∨ i = .waitCmd := by simpa using hi
    · rw [exec_upRead, upRead_fatal hm h]; rfl
    · rw [exec_waitCmd, waitCmd, upRead_fatal hm h]; rfl
  · rw [exec_upRead, exec_waitCmd, waitCmd, upRead_silent hm h]
    exact ⟨rfl, rfl⟩

/-- Settles O5: the two endings of `UpWrite`. -/
theorem upWriteWritesAll : Obligations.UpWriteWritesAll := by
  intro bs s hm hlen
  rw [exec_upWrite hlen]
  refine ⟨fun h => ?_, fun h => ?_⟩
  · rw [upWrite_ok hm h]; rfl
  · rw [upWrite_fatal hm h]; rfl

/-- Settles O6: the mode is checked by the primitive, the operand before it is called. -/
theorem primitiveOutsideItsDomainStops : Obligations.PrimitiveOutsideItsDomainStops := by
  intro s
  refine ⟨fun hm => ?_, fun hm hpos => ?_, fun bs hlen hm => ?_, fun _ => exec_upWrite_refused,
    fun _ => exec_camRead_refused, rfl⟩
  · rw [exec_upRead, exec_waitCmd, waitCmd, upRead_transmit hm]
    exact ⟨rfl, rfl⟩
  · rw [exec_writeResp, writeResp, if_pos hpos, upWrite_receive hm]; rfl
  · rw [exec_upWrite hlen, upWrite_receive hm]; rfl

/-! ## The camera channel -/

/-- The bytes of a read one by one: the buffer's, then 0xFF (20_memory.md R85). -/
theorem takeFilled_getElem? {n i : Nat} (buf : List Byte) (h : i < n) :
    (takeFilled n buf)[i]? = some (buf.getD i 0xFF) := by
  rw [takeFilled, List.getElem?_take_of_lt h, List.getD_eq_getElem?_getD]
  by_cases hi : i < buf.length
  · rw [List.getElem?_append_left hi, List.getElem?_eq_getElem hi]; rfl
  · have hn : i - buf.length < n := by omega
    rw [List.getElem?_append_right (by omega), List.getElem?_replicate_of_lt hn, List.getElem?_eq_none (by omega)]
    rfl

/-- Settles O7: the two endings of `CamRead`. -/
theorem camReadReturnsExactlyN : Obligations.CamReadReturnsExactlyN := by
  intro n s hn
  rw [exec_camRead hn]
  refine ⟨fun h => ⟨takeFilled n s.env.camBuf, takeFilled_length _ _, fun i hi => takeFilled_getElem? _ hi, ?_⟩,
    fun f h => ?_⟩
  · rw [camRead_ok h]; rfl
  · rw [camRead_fault h]; rfl

/-- A write has no `ZeroLength` (20_memory.md R65). -/
theorem CamWriteFault.kind_ne_zeroLength (f : CamWriteFault) : f.kind ≠ .zeroLength := by
  cases f <;> decide

/-- Settles O8: the two endings of `CamWrite`. -/
theorem camWriteWritesAll : Obligations.CamWriteWritesAll := by
  intro bs s hbs
  rw [exec_camWrite hbs]
  refine ⟨fun h => ?_, fun f h => ⟨f.kind_ne_zeroLength, ?_⟩⟩
  · rw [camWrite_ok h]; rfl
  · rw [camWrite_fault h]; rfl

/-! ## Pins, analog input, clock, diagnostics -/

/-- Settles O9: the two endings of `PinSet`; the pin that is driven is the one that is named (`Pins.drive`). -/
theorem pinSetDrivesOnePin : Obligations.PinSetDrivesOnePin := by
  intro l s
  refine ⟨fun h => ?_, fun h p => ?_⟩
  · have hok (p : Pin) : exec (.pinSet p l) s = .next { s with
        pins := s.pins.drive p l, env := { s.env with pin := s.env.pin.tail }, trace := .pin p l :: s.trace } := by
      rw [exec_pinSet, pinSet_ok h]; rfl
    exact ⟨hok .dir, hok .muxReset, hok .muxAdv⟩
  · rw [exec_pinSet, pinSet_fatal h]; rfl

/-- Settles O10: the three endings of `AnalogRead`. -/
theorem analogReadReturnsASample : Obligations.AnalogReadReturnsASample := by
  intro s
  rw [exec_analogRead]
  refine ⟨fun v rest h => ?_, fun h => ⟨Config.freeSample s.fresh, ?_⟩, fun rest h => ?_⟩
  · rw [analogRead_sample h]; rfl
  · rw [analogRead_free h]; rfl
  · rw [analogRead_fatal h]; rfl

/-- Settles O11: the two endings of `Sleep`, and the one of `Diag`. -/
theorem sleepAndDiagAreEventsOnly : Obligations.SleepAndDiagAreEventsOnly := by
  intro s
  refine ⟨fun d h => ?_, fun d h => ?_, fun _ => rfl⟩
  · rw [exec_sleep, sleep_ok h]; rfl
  · rw [exec_sleep, sleep_fatal h]; rfl

end Sys2Proof.Machine
end

section
/-! PROOFS. The family 30_encoding.md, first part: the decoder and the encoder agree. What each format's decoder reads, and
what the encoder gives for it, is said once per format; the two directions are then a split over the instructions and one
over the formats. -/

namespace Sys2Proof

/-! ## The commands (R91, R102) -/

theorem responseClass_wrapped_iff (P : Profile) (c : Byte) : responseClass P c = .wrapped ↔ c = P.cmdWrapped := by
  unfold responseClass
  by_cases h : c = P.cmdWrapped
  · simp [h]
  · simp only [h, if_false]; split <;> simp

theorem eq_cmdDirect_of_direct {P : Profile} {c : Byte} (h : responseClass P c = .direct) : c = P.cmdDirect := by
  unfold responseClass at h
  split at h
  · cases h
  · split at h
    · assumption
    · cases h

theorem decodeU1_of_unrecognized {b : Byte} (h : uplinkCmd b = .unrecognized) : decodeU1 b = .unrecognized b := by
  rw [decodeU1, h]

section
variable {P : Profile} {b : Byte}

theorem decodeRequestResponse_of_wrapped (h : responseClass P b = .wrapped) : decodeRequestResponse P b = .respWrapped := by
  rw [decodeRequestResponse, h]

theorem decodeRequestResponse_of_direct (h : responseClass P b = .direct) : decodeRequestResponse P b = .respDirect := by
  rw [decodeRequestResponse, h]

theorem decodeRequestResponse_of_unknown (h : responseClass P b = .unknown) : decodeRequestResponse P b = .respUnknown b := by
  rw [decodeRequestResponse, h]

end

theorem encode_decodeU1 (P : Profile) (b : Byte) : encode P (decodeU1 b) = some (.u1, [b]) := by
  cases h : uplinkCmd b with
  | sigLo => rw [(uplinkCmd_sigLo_iff b).1 h]; rfl
  | sigHi => rw [(uplinkCmd_sigHi_iff b).1 h]; rfl
  | camData => rw [(uplinkCmd_camData_iff b).1 h]; rfl
  | unrecognized => rw [decodeU1_of_unrecognized h]; rfl

theorem encode_decodeHandshakeResponse (P : Profile) (b : Byte) :
    encode P (decodeHandshakeResponse P b) = some (.respHandshake, [b]) := by
  unfold decodeHandshakeResponse
  split
  · next h => rw [h]; rfl
  · rfl

theorem encode_decodeRequestResponse (P : Profile) (b : Byte) :
    encode P (decodeRequestResponse P b) = some (.respRequest, [b]) := by
  cases h : responseClass P b with
  | wrapped => rw [decodeRequestResponse_of_wrapped h, (responseClass_wrapped_iff P b).1 h]; rfl
  | direct => rw [decodeRequestResponse_of_direct h, eq_cmdDirect_of_direct h]; rfl
  | unknown => rw [decodeRequestResponse_of_unknown h]; rfl

/-! ## The camera frame (R94 to R96) -/

/-- A length byte holds the length of a payload that a frame can carry. -/
theorem toNat_lengthByte {n : Nat} (h : n ≤ 255) : (BitVec.ofNat 8 n).toNat = n := by
  rw [BitVec.toNat_ofNat]; omega

theorem decodeTail_encoded (command : Byte) (algorithm : Option Byte) {payload : List Byte} (ck : Byte)
    (h : payload.length ≤ 255) :
    decodeTail command algorithm (BitVec.ofNat 8 payload.length :: (payload ++ [ck]))
      = .ok (.cameraFrame command algorithm payload ck) := by
  simp [decodeTail, -BitVec.toNat_ofNat, toNat_lengthByte h]

theorem encoded_of_decodeTail {command : Byte} {algorithm : Option Byte} {bs : List Byte} {i : Instr}
    (h : decodeTail command algorithm bs = .ok i) :
    ∃ payload ck, bs = BitVec.ofNat 8 payload.length :: (payload ++ [ck]) ∧ i = .cameraFrame command algorithm payload ck := by
  unfold decodeTail at h
  split at h
  · cases h
  · next len rest =>
    split at h
    · cases h
    · next ck hck =>
      have hlen : (rest.take len.toNat).length = len.toNat := by
        have := congrArg List.length hck
        simp at this ⊢; omega
      refine ⟨rest.take len.toNat, ck, ?_, (Decoded.ok.inj h).symm⟩
      rw [hlen, BitVec.ofNat_toNat, BitVec.setWidth_eq, ← hck, List.take_append_drop]
    · cases h

theorem decodeDescriptor_encoded {P : Profile} (command : Byte) {algorithm : Option Byte} {payload : List Byte} (ck : Byte)
    (ha : algorithm.isSome = P.hasAlgo) (h : payload.length ≤ 255) :
    decodeDescriptor P (command :: (algorithm.toList ++ BitVec.ofNat 8 payload.length :: (payload ++ [ck])))
      = .ok (.cameraFrame command algorithm payload ck) := by
  cases algorithm <;> simp [decodeDescriptor, ← ha, decodeTail_encoded _ _ _ h]

theorem encoded_of_decodeDescriptor {P : Profile} {bs : List Byte} {i : Instr} (h : decodeDescriptor P bs = .ok i) :
    ∃ command algorithm payload ck, bs = command :: (algorithm.toList ++ BitVec.ofNat 8 payload.length :: (payload ++ [ck]))
      ∧ i = .cameraFrame command algorithm payload ck := by
  unfold decodeDescriptor at h
  split at h
  · cases h
  · next command rest =>
    split at h
    · split at h
      · cases h
      · next algorithm rest =>
        obtain ⟨payload, ck, rfl, hi⟩ := encoded_of_decodeTail h
        exact ⟨command, some algorithm, payload, ck, rfl, hi⟩
    · obtain ⟨payload, ck, rfl, hi⟩ := encoded_of_decodeTail h
      exact ⟨command, none, payload, ck, rfl, hi⟩

theorem encode_cameraFrame (P : Profile) (command : Byte) (algorithm : Option Byte) (payload : List Byte) (ck : Byte) :
    encode P (.cameraFrame command algorithm payload ck) = some (.cf, P.hdr1 :: P.hdr2 :: command ::
      (algorithm.toList ++ BitVec.ofNat 8 payload.length :: (payload ++ [ck]))) := by
  simp [encode]

theorem decodeCF_encoded {P : Profile} (command : Byte) {algorithm : Option Byte} {payload : List Byte} (ck : Byte)
    (ha : algorithm.isSome = P.hasAlgo) (h : payload.length ≤ 255) :
    decodeCF P (P.hdr1 :: P.hdr2 :: command :: (algorithm.toList ++ BitVec.ofNat 8 payload.length :: (payload ++ [ck])))
      = .ok (.cameraFrame command algorithm payload ck) := by
  rw [decodeCF, if_neg (not_not.2 rfl), if_neg (not_not.2 rfl), decodeDescriptor_encoded command ck ha h]

theorem encode_of_decodeCF {P : Profile} {bs : List Byte} {i : Instr} (h : decodeCF P bs = .ok i) :
    encode P i = some (.cf, bs) := by
  unfold decodeCF at h
  split at h
  · next h1 h2 rest =>
    split at h
    · cases h
    · next e1 =>
      split at h
      · cases h
      · next e2 =>
        obtain ⟨command, algorithm, payload, ck, rfl, rfl⟩ := encoded_of_decodeDescriptor h
        rw [encode_cameraFrame, not_not.1 e1, not_not.1 e2]
  · cases h

/-! ## Sentinels, chunks, request frames (R99 to R101) -/

theorem encode_of_decodeSN {P : Profile} {bs : List Byte} {i : Instr} (h : decodeSN bs = .ok i) :
    encode P i = some (.sn, bs) := by
  unfold decodeSN at h
  split at h
  · next a b c =>
    split at h
    · next hab =>
      obtain ⟨rfl, rfl⟩ := hab
      split at h
      · next hc => cases h; rw [hc]; rfl
      · split at h
        · next hc => cases h; rw [hc]; rfl
        · cases h
    · cases h
  · cases h

theorem encode_of_decodeFC {P : Profile} {bs : List Byte} {i : Instr} (h : decodeFC bs = .ok i) :
    encode P i = some (.fc, bs) := by
  unfold decodeFC at h
  split at h
  · split at h
    · next hff => obtain ⟨rfl, rfl, rfl, rfl⟩ := hff; cases h; rfl
    · cases h; rfl
  · cases h

theorem encode_of_decodeTX {P : Profile} {bs : List Byte} {i : Instr} (h : decodeTX P bs = .ok i) :
    encode P i = some (.tx, bs) := by
  unfold decodeTX at h
  split at h
  · next hbs => cases h; rw [hbs]; rfl
  · split at h
    · next hbs => cases h; rw [hbs.2]; rfl
    · split at h
      · next hbs => cases h; rw [hbs]; rfl
      · cases h

/-! ## Reports (R92, R93, R106) -/

theorem extractLsb'_high_setWidth (index : BitVec 3) : (index.setWidth 8).extractLsb' 3 5 = 0 := by
  revert index; decide

theorem extractLsb'_low_setWidth (index : BitVec 3) : (index.setWidth 8).extractLsb' 0 3 = index := by
  revert index; decide

theorem setWidth_extractLsb'_low {a : Byte} (h : a.extractLsb' 3 5 = 0) : (a.extractLsb' 0 3).setWidth 8 = a := by
  revert a; decide

theorem packByte1_freq (mag : BitVec 7) (freq : Bool) : (packByte1 mag freq).getLsbD 7 = freq := by
  exact (BitVec.getLsbD_append (x := BitVec.ofBool freq) (y := mag)).trans (by simp)

theorem packByte1_mag (mag : BitVec 7) (freq : Bool) : (packByte1 mag freq).extractLsb' 0 7 = mag :=
  BitVec.extractLsb'_append_eq_right

theorem packByte1_unpacked (b : Byte) : packByte1 (b.extractLsb' 0 7) (b.getLsbD 7) = b := by
  revert b; decide

theorem decodeSR_encoded (index : BitVec 3) (freq : Bool) (mag : BitVec 7) (ck : Option Byte) :
    decodeSR ([index.setWidth 8, packByte1 mag freq] ++ ck.toList) = .ok (.signalReport index freq mag ck) := by
  cases ck <;>
    simp only [decodeSR, Option.toList, List.cons_append, List.nil_append, extractLsb'_high_setWidth,
      extractLsb'_low_setWidth, packByte1_freq, packByte1_mag, ne_eq, not_true_eq_false, if_false]

theorem encode_of_decodeSR {P : Profile} {bs : List Byte} {i : Instr} (h : decodeSR bs = .ok i) :
    encode P i = some (.sr, bs) := by
  unfold decodeSR at h
  split at h
  · next a b rest =>
    split at h
    · cases h
    · next ha =>
      have hfields (ck : Option Byte) :
          encode P (.signalReport (a.extractLsb' 0 3) (b.getLsbD 7) (b.extractLsb' 0 7) ck)
            = some (.sr, [a, b] ++ ck.toList) := by
        rw [encode, setWidth_extractLsb'_low (not_not.1 ha), packByte1_unpacked]
      match rest, h with
      | [], rfl => exact hfields none
      | [ck], rfl => exact hfields (some ck)
      | _ :: _ :: _, h => cases h
  · cases h

theorem decodeBR_encoded (b : Block) (ck : Option Byte) : decodeBR (b.toList ++ ck.toList) = .ok (.blockReport b ck) := by
  obtain ⟨⟨l⟩, hl⟩ := b
  match l, hl with
  | [_, _, _, _, _, _, _, _], _ => cases ck <;> rfl

theorem encode_of_decodeBR {P : Profile} {bs : List Byte} {i : Instr} (h : decodeBR bs = .ok i) :
    encode P i = some (.br, bs) := by
  unfold decodeBR at h
  split at h
  · cases h; rfl
  · cases h; rfl
  · cases h

/-! ## The two directions, and the words written out -/

/-- Settles O58: the word of each row is read back by its format's decoder; an operation of format "internal" has no word. -/
theorem decodeOfEncode : Obligations.DecodeOfEncode := by
  intro P i fmt bs hw he
  cases i with
  | sigLo | sigHi | camData | sentinelH1 | sentinelH2 | chunkEmpty => cases he; rfl
  | unrecognized cmd => cases he; exact congrArg Decoded.ok (decodeU1_of_unrecognized (of_decide_eq_true hw))
  | respOk => cases he; exact congrArg Decoded.ok (if_pos rfl)
  | respNotOk cmd => cases he; exact congrArg Decoded.ok (if_neg (of_decide_eq_true hw))
  | respWrapped =>
    cases he
    exact congrArg Decoded.ok (decodeRequestResponse_of_wrapped ((responseClass_wrapped_iff P P.cmdWrapped).2 rfl))
  | respDirect => cases he; exact congrArg Decoded.ok (decodeRequestResponse_of_direct (of_decide_eq_true hw))
  | respUnknown cmd => cases he; exact congrArg Decoded.ok (decodeRequestResponse_of_unknown (of_decide_eq_true hw))
  | cameraFrame command algorithm payload ck =>
    simp only [Instr.wellFormed, Bool.and_eq_true, decide_eq_true_eq] at hw
    rw [encode_cameraFrame] at he
    cases he
    exact decodeCF_encoded command ck hw.1 hw.2
  | chunkData a b c d =>
    cases he
    refine if_neg fun ⟨ha, hb, hc, hd⟩ => ?_
    simp [Instr.wellFormed, ha, hb, hc, hd] at hw
  | txKnock => cases he; exact if_pos rfl
  | txAlgsel =>
    cases he
    simp only [Instr.wellFormed, Bool.and_eq_true, decide_eq_true_eq] at hw
    exact (if_neg hw.2).trans (if_pos ⟨hw.1, rfl⟩)
  | txReqblk =>
    cases he
    simp only [Instr.wellFormed, Bool.and_eq_true, decide_eq_true_eq] at hw
    obtain ⟨hknock, hsel⟩ := hw
    refine (if_neg hknock).trans ((if_neg fun ⟨ha, he⟩ => ?_).trans (if_pos rfl))
    simp [ha, he] at hsel
  | signalReport index freq mag ck => cases he; exact decodeSR_encoded index freq mag ck
  | blockReport b ck => cases he; exact decodeBR_encoded b ck
  | _ => nomatch he

/-- Settles O59, format by format. -/
theorem encodeOfDecode : Obligations.EncodeOfDecode := by
  intro P fmt bs i h
  cases fmt with
  | u1 => match bs, h with | [b], rfl => exact encode_decodeU1 P b
  | respHandshake => match bs, h with | [b], rfl => exact encode_decodeHandshakeResponse P b
  | respRequest => match bs, h with | [b], rfl => exact encode_decodeRequestResponse P b
  | cf => exact encode_of_decodeCF h
  | sn => exact encode_of_decodeSN h
  | fc => exact encode_of_decodeFC h
  | tx => exact encode_of_decodeTX h
  | sr => exact encode_of_decodeSR h
  | br => exact encode_of_decodeBR h

/-- Settles O60: the decoder computes each. -/
theorem decodedWords : Obligations.DecodedWords := ⟨rfl, rfl, rfl, rfl, rfl, rfl⟩

end Sys2Proof
end

section
/-! PROOFS. The family 30_encoding.md, second part: the camera's channel as a stream. An operation that takes certain bytes
from the channel (`Eff.Takes`) is followed phase by phase, up to the whole decode of every stream there is
(`frameDecode_takes`); a flush is followed chunk by chunk (`flush_of_flushes`). -/

namespace Sys2Proof.Machine

/-! ## Reads of a delivered stream -/

/-- A longer read is a shorter one and what the channel answers next, filler included (20_memory.md R85). -/
theorem takeFilled_add (m n : Nat) (buf : List Byte) :
    takeFilled (m + n) buf = takeFilled m buf ++ takeFilled n (buf.drop m) := by
  refine List.ext_getElem? fun i => ?_
  rcases Nat.lt_or_ge i m with hm | hm
  · rw [List.getElem?_append_left (by simpa), takeFilled_getElem? _ hm, takeFilled_getElem? _ (by omega)]
  · rw [List.getElem?_append_right (by simpa), takeFilled_length]
    rcases Nat.lt_or_ge i (m + n) with hn | hn
    · rw [takeFilled_getElem? _ hn, takeFilled_getElem? _ (by omega)]
      simp only [List.getD_eq_getElem?_getD, List.getElem?_drop, Nat.add_sub_cancel' hm]
    · rw [List.getElem?_eq_none (by simpa), List.getElem?_eq_none (by simp; omega)]

theorem camRdFault_of_take {e : Env} {n : Nat} (h : ∀ f ∈ e.camRd.take (n + 1), f = none) : e.camRdFault = none := by
  unfold Env.camRdFault firstFault
  split
  · rfl
  · next f l hl => exact h f (by simp [hl])

theorem delivers_append {s : State} {bs cs rest : List Byte} (h : s.env.delivers (bs ++ cs) rest) :
    s.env.delivers bs (s.env.camBuf.drop bs.length)
      ∧ (afterReads bs (s.env.camBuf.drop bs.length) s).env.delivers cs rest := by
  simp only [Env.delivers, List.length_append, takeFilled_add, ← List.drop_drop, List.take_add, List.mem_append] at h
  obtain ⟨htake, hdrop, hnone⟩ := h
  obtain ⟨hbs, hcs⟩ := List.append_inj htake (by simp)
  exact ⟨⟨hbs, rfl, fun f hf => hnone f (.inl hf)⟩, hcs, hdrop, fun f hf => hnone f (.inr hf)⟩

theorem afterReads_append (bs cs mid rest : List Byte) (s : State) :
    afterReads cs rest (afterReads bs mid s) = afterReads (bs ++ cs) rest s := by
  simp [afterReads, List.drop_drop]

/-- Whenever the channel delivers `bs` next, `m` takes these bytes, and no more, returns `a`, and leaves the framer's
registers at `regs`; nothing else changes. -/
def Eff.Takes {α : Type} (m : Eff α) (s : State) (bs : List Byte) (a : α) (regs : Framer) : Prop :=
  ∀ rest, s.env.delivers bs rest → m = .ok a (afterReads bs rest (s.setFrm regs))

section
variable {α β : Type} {s : State} {m : Eff α} {bs cs : List Byte} {a : α} {b : β} {regs regs' : Framer}

theorem Eff.Takes.andThen {f : α → State → Eff β} (hm : m.Takes s bs a regs)
    (hf : ∀ t, t.profile = s.profile → t.frm = regs → (f a t).Takes t cs b regs') :
    (m.andThen f).Takes s (bs ++ cs) b regs' := by
  intro rest h
  obtain ⟨hbs, hcs⟩ := delivers_append h
  rw [hm _ hbs, Eff.andThen_ok, hf (afterReads bs _ (s.setFrm regs)) rfl rfl rest hcs]
  exact congrArg (Eff.ok b) (afterReads_append bs cs _ _ (s.setFrm regs'))

/-- An operation that reads nothing. -/
theorem takes_ok (a : α) (s : State) (regs : Framer) : (Eff.ok a (s.setFrm regs)).Takes s [] a regs := by
  rintro rest ⟨-, rfl, -⟩; rfl

/-- The registers an operation finds are written before its first read. -/
theorem Eff.Takes.of_setFrm {old : Framer} (h : m.Takes (s.setFrm old) bs a regs) : m.Takes s bs a regs := h

/-- One read, and an update of the framer's registers by the byte. -/
theorem readThen_takes {f : Byte → State → State} {b : Byte} (g : Framer)
    (hf : ∀ t, t.profile = s.profile → t.frm = s.frm → f b t = t.setFrm g) :
    ((nextByte s).andThen fun b t => .ok () (f b t)).Takes s [b] () g := by
  rintro rest ⟨htake, rfl, hnone⟩
  have hread : nextByte s = .ok b (afterReads [b] (s.env.camBuf.drop 1) s) := by
    rw [nextByte, camRead_ok (camRdFault_of_take hnone), Eff.andThen_ok]
    simp only [List.length_singleton] at htake
    rw [htake]; simp [afterReads, State.log, State.setEnv]
  rw [hread, Eff.andThen_ok, hf (afterReads [b] _ s) rfl rfl]; rfl

end

/-! ## Header searches (43_framer.md R152 to R156) -/

/-- What tells the two header searches apart; either is over in the phase a header or the abort leads to. -/
structure HeaderSearch where
  ph : FrmPh
  code : SyncCode
  hdr : Profile → Byte
  found : Profile → Framer → Framer
  found_ph : ∀ P f, (found P f).ph ≠ ph
  done_ne : .done ≠ ph

def h1Search : HeaderSearch where
  ph := .h1
  code := .h1
  hdr := Profile.hdr1
  found P f := { f with ph := .h2, acc := f.acc + P.hdr1, att := 0 }
  found_ph _ _ := by simp
  done_ne := by simp

def h2Search : HeaderSearch where
  ph := .h2
  code := .h2
  hdr := Profile.hdr2
  found P f := { f with ph := .cmd, acc := f.acc + P.hdr2 }
  found_ph _ _ := by simp
  done_ne := by simp

namespace HeaderSearch

variable (S : HeaderSearch)

/-- What one byte does to the framer's registers. -/
def take (P : Profile) (b : Byte) (f : Framer) : Framer :=
  if b = S.hdr P then S.found P { f with att := f.att + 1 }
  else if f.att + 1 = Config.syncBudget then { f with att := f.att + 1, ph := .done, res := some (.syncError S.code) }
  else { f with att := f.att + 1 }

/-- At most `n` more reads. -/
def loop : Nat → State → Eff Unit
  | 0, s => .ok () s
  | n + 1, s => ((nextByte s).andThen fun b t => .ok () (t.setFrm (S.take t.profile b t.frm))).andThen fun _ t =>
      if t.frm.ph = S.ph then loop n t else .ok () t

theorem take_hdr (P : Profile) (f : Framer) : S.take P (S.hdr P) f = S.found P { f with att := f.att + 1 } := if_pos rfl

variable {S} {P : Profile} {b : Byte} {f : Framer}

theorem take_skip (hb : b ≠ S.hdr P) (ha : f.att + 1 ≠ Config.syncBudget) : S.take P b f = { f with att := f.att + 1 } := by
  rw [take, if_neg hb, if_neg ha]

theorem take_last (hb : b ≠ S.hdr P) (ha : f.att + 1 = Config.syncBudget) :
    S.take P b f = { f with att := Config.syncBudget, ph := .done, res := some (.syncError S.code) } := by
  rw [take, if_neg hb, if_pos ha, ha]

theorem readTake_takes (b : Byte) (s : State) :
    ((nextByte s).andThen fun b t => .ok () (t.setFrm (S.take t.profile b t.frm))).Takes s [b] () (S.take s.profile b s.frm) :=
  readThen_takes _ fun t hp hf => by rw [hp, hf]

/-- A header met within the budget ends the search (R152, R154). -/
theorem loop_found {skipped : List Byte} {n : Nat} {s : State} (hph : s.frm.ph = S.ph)
    (hskip : ∀ b ∈ skipped, b ≠ S.hdr s.profile) (hlt : skipped.length < n) (hn : s.frm.att + n ≤ Config.syncBudget) :
    (S.loop n s).Takes s (skipped ++ [S.hdr s.profile]) ()
      (S.found s.profile { s.frm with att := s.frm.att + skipped.length + 1 }) := by
  induction skipped generalizing n s with
  | nil =>
    obtain _ | n := n
    · cases hlt
    refine (readTake_takes _ s).andThen (cs := []) fun t _ hf => ?_
    rw [take_hdr] at hf
    rw [if_neg (by rw [hf]; exact S.found_ph _ _)]
    exact hf ▸ takes_ok () t t.frm
  | cons b skipped ih =>
    obtain _ | n := n
    · cases hlt
    rw [List.forall_mem_cons] at hskip
    rw [List.length_cons] at hlt
    refine (readTake_takes b s).andThen (cs := skipped ++ [S.hdr s.profile]) fun t hp hf => ?_
    rw [take_skip hskip.1 (by omega)] at hf
    rw [if_pos (by rw [hf]; exact hph)]
    have := @ih n t (by rw [hf]; exact hph) (by rw [hp]; exact hskip.2) (by omega) (by rw [hf]; dsimp only; omega)
    rw [hp, hf] at this
    simpa only [List.length_cons, Nat.add_assoc, Nat.add_comm, Nat.add_left_comm] using this

/-- A budget used up without the header aborts (R152, R154). -/
theorem loop_abort {skipped : List Byte} {s : State} (hph : s.frm.ph = S.ph)
    (hskip : ∀ b ∈ skipped, b ≠ S.hdr s.profile) (hpos : skipped ≠ []) (hn : s.frm.att + skipped.length = Config.syncBudget) :
    (S.loop skipped.length s).Takes s skipped ()
      { s.frm with att := Config.syncBudget, ph := .done, res := some (.syncError S.code) } := by
  induction skipped generalizing s with
  | nil => exact absurd rfl hpos
  | cons b skipped ih =>
    rw [List.forall_mem_cons] at hskip
    rw [List.length_cons] at hn
    rcases eq_or_ne skipped [] with rfl | hne
    · refine (readTake_takes b s).andThen (cs := []) fun t _ hf => ?_
      rw [take_last hskip.1 hn] at hf
      rw [if_neg (by rw [hf]; exact S.done_ne)]
      exact hf ▸ takes_ok () t t.frm
    · have := List.length_pos_of_ne_nil hne
      refine (readTake_takes b s).andThen fun t hp hf => ?_
      rw [take_skip hskip.1 (by omega)] at hf
      rw [if_pos (by rw [hf]; exact hph)]
      have := @ih t (by rw [hf]; exact hph) (by rw [hp]; exact hskip.2) hne (by rw [hf]; dsimp only; omega)
      rwa [hf] at this

end HeaderSearch

theorem takeH1_eq (b : Byte) (s : State) : takeH1 b s = s.setFrm (h1Search.take s.profile b s.frm) := by
  unfold takeH1 HeaderSearch.take
  simp only [apply_ite s.setFrm]
  rfl

theorem takeH2_eq (b : Byte) (s : State) : takeH2 b s = s.setFrm (h2Search.take s.profile b s.frm) := by
  unfold takeH2 HeaderSearch.take
  simp only [apply_ite s.setFrm]
  rfl

theorem searchH1Loop_eq (n : Nat) (s : State) : searchH1Loop n s = h1Search.loop n s := by
  induction n generalizing s with
  | zero => rfl
  | succ n ih => simp only [searchH1Loop, HeaderSearch.loop, stepH1, takeH1_eq, ih]; rfl

theorem searchH2Loop_eq (n : Nat) (s : State) : searchH2Loop n s = h2Search.loop n s := by
  induction n generalizing s with
  | zero => rfl
  | succ n ih => simp only [searchH2Loop, HeaderSearch.loop, stepH2, takeH2_eq, ih]; rfl

section
variable {s : State} {skipped : List Byte}

theorem searchH1_found (hskip : ∀ b ∈ skipped, b ≠ s.profile.hdr1) (hlt : skipped.length < 32) :
    (searchH1 s).Takes s (skipped ++ [s.profile.hdr1]) ()
      { s.frm with ph := .h2, acc := s.profile.hdr1, att := 0, res := none } := by
  rw [searchH1, searchH1Loop_eq]
  have := HeaderSearch.loop_found (S := h1Search) (s := frameStart s) rfl hskip hlt le_rfl
  simpa [h1Search, frameStart, Config.syncBudget] using this.of_setFrm

theorem searchH1_abort (hskip : ∀ b ∈ skipped, b ≠ s.profile.hdr1) (hlen : skipped.length = 32) :
    (searchH1 s).Takes s skipped ()
      { s.frm with ph := .done, acc := 0, att := 32, res := some (.syncError .h1) } := by
  have := HeaderSearch.loop_abort (S := h1Search) (s := frameStart s) rfl hskip (List.ne_nil_of_length_pos (by omega))
    (by rw [hlen]; rfl)
  rw [hlen, ← searchH1Loop_eq] at this
  exact this.of_setFrm

theorem searchH2_found (hskip : ∀ b ∈ skipped, b ≠ s.profile.hdr2) (hlt : skipped.length < 32) :
    (searchH2 s).Takes s (skipped ++ [s.profile.hdr2]) ()
      { s.frm with ph := .cmd, acc := s.frm.acc + s.profile.hdr2, att := skipped.length + 1 } := by
  rw [searchH2, searchH2Loop_eq]
  have := HeaderSearch.loop_found (S := h2Search) (s := s.setFrm { s.frm with ph := .h2, att := 0 }) rfl hskip hlt le_rfl
  simpa [h2Search, Config.syncBudget] using this.of_setFrm

theorem searchH2_abort (hskip : ∀ b ∈ skipped, b ≠ s.profile.hdr2) (hlen : skipped.length = 32) :
    (searchH2 s).Takes s skipped () { s.frm with ph := .done, att := 32, res := some (.syncError .h2) } := by
  have := HeaderSearch.loop_abort (S := h2Search) (s := s.setFrm { s.frm with ph := .h2, att := 0 }) rfl hskip
    (List.ne_nil_of_length_pos (by omega)) (by rw [hlen]; rfl)
  rw [hlen, ← searchH2Loop_eq] at this
  exact this.of_setFrm

end

/-! ## The frame after its headers (43_framer.md R157 to R162) -/

section
variable {s : State}

theorem readCmd_takes (b : Byte) : (readCmd s).Takes s [b] ()
    { s.frm with cmd := b, acc := s.frm.acc + b, ph := if s.profile.hasAlgo then .algo else .len } :=
  readThen_takes _ fun t hp hf => by simp only [takeCmd, accStep, hp, hf]; rfl

theorem readAlgo_takes (b : Byte) (ha : s.profile.hasAlgo = true) :
    (readAlgo s).Takes s [b] () { s.frm with alg := b, acc := s.frm.acc + b, ph := .len } := by
  rw [readAlgo, if_pos ha]
  exact readThen_takes _ fun t hp hf => by simp only [takeAlgo, accStep, hf]; rfl

theorem readLen_takes (b : Byte) : (readLen s).Takes s [b] ()
    { s.frm with len := b, acc := s.frm.acc + b, idx := 0, ph := if b = 0 then .ck else .pay } :=
  readThen_takes _ fun t hp hf => by simp only [takeLen, accStep, hf]; rfl

/-- The missing bytes of the payload, and the entry to `F_CK` (R160). -/
theorem readPayload_takes {bs : List Byte} (hlen : bs.length = s.frm.len.toNat - s.frm.idx) :
    (readPayload s).Takes s bs () { s.frm with
      pay := writeFrom s.frm.pay s.frm.idx bs
      idx := s.frm.idx + bs.length
      acc := s.frm.acc + checksum bs
      ph := .ck } := by
  rw [readPayload, ← hlen]
  induction bs generalizing s with
  | nil => simpa [payloadLoop, setFrmPh, checksum_nil] using takes_ok () s { s.frm with ph := .ck }
  | cons b bs ih =>
    rw [List.length_cons] at hlen
    rw [List.length_cons, payloadLoop, if_pos (by omega), Eff.andThen_assoc]
    refine (readThen_takes (takePayload b s).frm fun t hp hf => by simp only [takePayload, accStep, hf]; rfl).andThen
      (bs := [b]) fun t hp hf => ?_
    have := @ih t (by rw [hf, takePayload_len, takePayload_idx]; omega)
    rw [hf] at this
    simpa [takePayload, accStep, writeFrom_cons, checksum_cons, add_assoc, Nat.add_comm 1] using this

theorem readCk_takes (b : Byte) : (readCk s).Takes s [b] () { s.frm with ckrx := b, ckok := ckMatches b s.frm.acc } :=
  readThen_takes _ fun t hp hf => by simp only [ckValidate, hf]; rfl

/-- The algorithm byte, where the profile has one (R157, R158). -/
theorem algoByte_takes (b : Byte) :
    (if s.profile.hasAlgo then readAlgo s else .ok () s).Takes s (if s.profile.hasAlgo then [b] else []) ()
      (if s.profile.hasAlgo then { s.frm with alg := b, acc := s.frm.acc + b, ph := .len } else s.frm) := by
  cases ha : s.profile.hasAlgo with
  | true => exact readAlgo_takes b ha
  | false => exact takes_ok () s s.frm

theorem returnResult_takes : (returnResult s).Takes s [] (resultOf s) { s.frm with res := some (resultOf s), ph := .idle } :=
  takes_ok _ s _

/-- The tag and the result, once the whole frame is in the registers (R161, R162). -/
theorem returnTagged_takes (f : WireFrame) (old : Framer) (att : Nat) (hpay : f.payload.length ≤ 255)
    (hf : s.frm = { f.regs s.profile old att with ph := .ck, cmd := f.command, res := none }) :
    (returnResult (tagDegraded s)).Takes s [] (.ok (f.record s.profile)) (f.regs s.profile old att) := by
  have hcmd : (tagDegraded s).frm.cmd = (f.record s.profile).command := by
    simp [tagDegraded, hf, WireFrame.regs, WireFrame.record, degrade, Config.degradedTag]
  have hframe : frameOf (tagDegraded s) = f.record s.profile := by
    rw [frameOf, hcmd]
    cases ha : s.profile.hasAlgo <;>
      simp [ha, tagDegraded, hf, WireFrame.regs, WireFrame.record, -BitVec.toNat_ofNat, toNat_lengthByte hpay,
        firstBytes_writeFrom _ _ hpay]
  have hr : resultOf (tagDegraded s) = .ok (f.record s.profile) := by
    rw [← hframe]
    simp [resultOf, tagDegraded, hf]
  have htakes := returnResult_takes (s := tagDegraded s)
  have hregs :
      { (tagDegraded s).frm with res := some (resultOf (tagDegraded s)), ph := .idle } = f.regs s.profile old att := by
    rw [hr]
    simp [tagDegraded, hf, WireFrame.regs, WireFrame.record, degrade, Config.degradedTag]
  rw [hregs, hr] at htakes
  exact htakes.of_setFrm

theorem WireFrame.inner_append (P : Profile) (f : WireFrame) (bs : List Byte) : f.inner P ++ bs =
    [f.command] ++ ((if P.hasAlgo then [f.algorithm] else [])
      ++ ([BitVec.ofNat 8 f.payload.length] ++ (f.payload ++ bs))) := by
  simp [WireFrame.inner]

theorem readFrame_takes (f : WireFrame) (hpay : f.payload.length ≤ 255) (hres : s.frm.res = none)
    (hacc : s.frm.acc = checksum [s.profile.hdr1, s.profile.hdr2]) :
    (readFrame s).Takes s (f.inner s.profile ++ [f.ck]) (.ok (f.record s.profile)) (f.regs s.profile s.frm s.frm.att) := by
  rw [readFrame, WireFrame.inner_append]
  refine (readCmd_takes _).andThen fun t htP ht => ?_
  rw [← htP]
  refine (algoByte_takes _).andThen fun u huP hu => ?_
  refine (readLen_takes _).andThen fun v hvP hv => ?_
  refine (readPayload_takes (by rw [hv]; exact (toNat_lengthByte hpay).symm)).andThen fun w hwP hw => ?_
  refine (readCk_takes _).andThen (cs := []) fun x hxP hx => ?_
  rw [← huP, ← hvP, ← hwP, ← hxP]
  refine returnTagged_takes f s.frm s.frm.att hpay ?_
  have hP : x.profile = s.profile := by rw [hxP, hwP, hvP, huP, htP]
  rw [hx, hw, hv, hu, ht, htP, hP]
  cases ha : s.profile.hasAlgo <;>
    simp [ha, WireFrame.regs, WireFrame.sum, WireFrame.inner, hres, hacc, checksum_cons, checksum_nil, add_assoc, ckMatches]

end

/-! ## The whole decode (43_framer.md R164) -/

/-- A decode that ends in an abort returns it. -/
theorem returnAbort_takes {s : State} {code : SyncCode} (h : s.frm.res = some (.syncError code)) :
    (returnResult s).Takes s [] (.syncError code) { s.frm with ph := .idle } := by
  have htakes := returnResult_takes (s := s)
  have hr : resultOf s = .syncError code := by rw [resultOf, h]
  rw [hr, ← h] at htakes
  exact htakes

/-- One decode takes what `Decodes` says, and returns and leaves what it says. -/
theorem frameDecode_takes {s : State} {bs : List Byte} {r : FrameResult} {regs : Framer}
    (h : Decodes s.profile s.frm bs r regs) : (frameDecode s).Takes s bs r regs := by
  unfold frameDecode
  cases h with
  | noHeader1 _ hlen hno =>
    rw [← List.append_nil bs]
    refine (searchH1_abort hno hlen).andThen fun t _ ht => ?_
    rw [if_pos (by rw [ht])]
    have := returnAbort_takes (s := t) (by rw [ht])
    rwa [ht] at this
  | noHeader2 pre bs hpre hno1 hlen hno2 =>
    refine (searchH1_found hno1 hpre).andThen fun t htP ht => ?_
    rw [if_neg (by rw [ht]; simp), ← List.append_nil bs]
    refine (searchH2_abort (by rwa [htP]) hlen).andThen fun u _ hu => ?_
    rw [if_pos (by rw [hu])]
    have := returnAbort_takes (s := u) (by rw [hu])
    rwa [hu, ht] at this
  | frame pre gap f hpre hno1 hgap hno2 hpay =>
    simp only [List.append_assoc]
    rw [← List.append_assoc]
    refine (searchH1_found hno1 hpre).andThen fun t htP ht => ?_
    rw [if_neg (by rw [ht]; simp), ← List.append_assoc, ← htP]
    refine (searchH2_found (by rwa [htP]) hgap).andThen fun u huP hu => ?_
    rw [if_neg (by rw [hu]; simp), ← huP]
    have := readFrame_takes (s := u) f hpay (by rw [hu, ht]) (by rw [hu, ht, huP, htP]; simp [checksum_cons, checksum_nil])
    rwa [hu, ht] at this

/-! ## Flushes (44_flusher.md R181) -/

/-- The state once the chunk `c` has been read, stored and counted. -/
def chunkStored (c : Vector Byte 4) (s : State) : State :=
  afterChunks [c] (s.env.camBuf.drop 4) (s.setFlu ⟨c, s.flu.n + 1⟩)

theorem deliversChunks_cons {s : State} {c : Vector Byte 4} {cs : List (Vector Byte 4)} {rest : List Byte}
    (h : s.env.deliversChunks (c :: cs) rest) : takeFilled 4 s.env.camBuf = c.toList ∧ s.env.camRdFault = none
      ∧ (chunkStored c s).env.deliversChunks cs rest := by
  obtain ⟨htake, hdrop, hnone⟩ := h
  rw [List.length_cons] at htake hdrop hnone
  rw [Nat.mul_succ, Nat.add_comm] at htake hdrop
  rw [takeFilled_add, List.map_cons, List.flatten_cons] at htake
  rw [← List.drop_drop] at hdrop
  obtain ⟨hc, hcs⟩ := List.append_inj htake (by simp)
  refine ⟨hc, camRdFault_of_take hnone, hcs, hdrop, fun f hf => hnone f ?_⟩
  rw [Nat.add_comm, List.take_add]
  exact List.mem_append_right _ hf

theorem afterChunks_chunkStored (c : Vector Byte 4) (cs : List (Vector Byte 4)) (rest : List Byte) (flu : Flusher) (s : State) :
    afterChunks cs rest ((chunkStored c s).setFlu flu) = afterChunks (c :: cs) rest (s.setFlu flu) := by
  simp [afterChunks, chunkStored, State.setFlu, Nat.add_comm]

section
variable {s : State} {c : Vector Byte 4} {cs : List (Vector Byte 4)} {rest : List Byte} {k : Nat}

/-- One pass of the loop below the bound: the chunk is stored, and its verdict says whether the loop goes on. -/
theorem flushLoop_succ (hk : s.flu.n + (k + 1) = s.profile.flushMax) (hd : s.env.deliversChunks (c :: cs) rest) :
    flushLoop (k + 1) s = if c = emptyChunk then .ok (.drained (s.flu.n + 1)) (chunkStored c s)
      else flushLoop k (chunkStored c s) := by
  obtain ⟨htake, hfault, -⟩ := deliversChunks_cons hd
  have hread : camRead Config.flushChunk s = .ok c.toList (afterChunks [c] (s.env.camBuf.drop 4) s) := by
    rw [camRead_ok hfault, Config.flushChunk, htake]
    simp [afterChunks, State.log, State.setEnv]
  have hstored : storeChunk c.toList (afterChunks [c] (s.env.camBuf.drop 4) s) = chunkStored c s := by
    rw [storeChunk, show (afterChunks [c] (s.env.camBuf.drop 4) s).flu = s.flu from rfl, writeFrom_full]; rfl
  rw [flushLoop, stepFlush, if_pos (show s.flu.n < _ by omega), hread, Eff.andThen_ok, hstored, Eff.andThen_ok]
  by_cases hc : c = emptyChunk
  · rw [if_pos hc, chunkVerdict, if_pos ((chunkIsEmpty_iff c).2 hc)]; rfl
  · rw [if_neg hc, chunkVerdict, if_neg (mt (chunkIsEmpty_iff c).1 hc)]
    have hmore : flushReadsOn (chunkStored c s) ↔ s.flu.n + 1 < s.profile.flushMax := Iff.rfl
    obtain _ | k := k
    · rw [if_neg (mt hmore.1 (by omega))]; rfl
    · rw [if_pos (hmore.2 (by omega))]

theorem flushLoop_drained (hn : ∀ c ∈ cs, c ≠ emptyChunk) (hlt : cs.length < k) (hk : s.flu.n + k = s.profile.flushMax)
    (hd : s.env.deliversChunks (cs ++ [emptyChunk]) rest) :
    flushLoop k s = .ok (.drained (s.flu.n + (cs.length + 1)))
      (afterChunks (cs ++ [emptyChunk]) rest (s.setFlu ⟨emptyChunk, s.flu.n + (cs.length + 1)⟩)) := by
  induction cs generalizing s k with
  | nil =>
    obtain _ | k := k
    · cases hlt
    rw [flushLoop_succ hk hd, if_pos rfl]
    obtain ⟨-, rfl, -⟩ := hd
    rfl
  | cons c cs ih =>
    obtain _ | k := k
    · cases hlt
    rw [List.forall_mem_cons] at hn
    rw [List.length_cons] at hlt
    obtain ⟨-, -, hd'⟩ := deliversChunks_cons hd
    have hn1 : (chunkStored c s).flu.n = s.flu.n + 1 := rfl
    rw [flushLoop_succ hk hd, if_neg hn.1, ih hn.2 (by omega) (by rw [hn1, Nat.add_assoc, Nat.add_comm 1]; exact hk) hd',
      afterChunks_chunkStored, hn1, Nat.add_assoc, Nat.add_comm 1]
    rfl

theorem flushLoop_exhausted (hn : ∀ c ∈ cs, c ≠ emptyChunk) (hk : s.flu.n + cs.length = s.profile.flushMax)
    (hd : s.env.deliversChunks cs rest) :
    flushLoop cs.length s = .ok .exhausted
      (afterChunks cs rest (s.setFlu ⟨cs.getLastD s.flu.chunk, s.flu.n + cs.length⟩)) := by
  induction cs generalizing s with
  | nil => obtain ⟨-, rfl, -⟩ := hd; rfl
  | cons c cs ih =>
    rw [List.forall_mem_cons] at hn
    obtain ⟨-, -, hd'⟩ := deliversChunks_cons hd
    have hn1 : (chunkStored c s).flu = ⟨c, s.flu.n + 1⟩ := rfl
    rw [List.length_cons, flushLoop_succ hk hd, if_neg hn.1,
      ih hn.2 (by rw [hn1, Nat.add_assoc, Nat.add_comm 1]; exact hk) hd', afterChunks_chunkStored, hn1, Nat.add_assoc,
      Nat.add_comm 1, List.getLastD_cons]

/-- One flush reads what `Flushes` says, and keeps and counts it. -/
theorem flush_of_flushes {last : Vector Byte 4} {r : FlushResult} (h : Flushes s.profile.flushMax (cs ++ [last]) r)
    (hd : s.env.deliversChunks (cs ++ [last]) rest) :
    flush s = .ok r (afterChunks (cs ++ [last]) rest (s.setFlu ⟨last, cs.length + 1⟩)) := by
  generalize hl : cs ++ [last] = l at h hd
  rw [flush]
  cases h with
  | drained cs' hn hlt =>
    obtain ⟨rfl, rfl⟩ := List.append_singleton_inj.1 hl
    rw [flushLoop_drained (s := flushStart s) hn hlt (Nat.zero_add _) hd]
    simp [flushStart]
  | exhausted _ hn hlen =>
    subst hl
    rw [← hlen, flushLoop_exhausted (s := flushStart s) hn (by rw [hlen]; exact Nat.zero_add _) hd]
    simp [flushStart]

end

end Sys2Proof.Machine
end

section
/-! PROOFS. The family 30_encoding.md, third part: the rows that are byte patterns. A camera frame is decoded, a request
frame written, a report loaded; a response to a block request ends in a block or in a flush. -/

namespace Sys2Proof.Machine

/-! ## The camera frame (R94 to R97) -/

/-- The algorithm byte of a frame stands where the profile has one (R95). -/
theorem algoByte_eq {P : Profile} {algorithm : Option Byte} (ha : algorithm.isSome = P.hasAlgo) :
    algorithm.toList = if P.hasAlgo then [algorithm.getD 0] else [] := by
  cases algorithm <;> simp [← ha]

/-- The row delivers its own word to the framer (log 17). -/
theorem exec_cameraFrame {s : State} {command : Byte} {algorithm : Option Byte} {payload bytes : List Byte} {ck : Byte}
    (h : encode s.profile (.cameraFrame command algorithm payload ck) = some (.cf, bytes)) :
    exec (.cameraFrame command algorithm payload ck) s
      = (frameDecode (s.setEnv { s.env with camBuf := bytes ++ s.env.camBuf })).answer .frame := by
  cases h; rfl

/-- A frame without anything to skip before its headers. -/
theorem decodes_frame (P : Profile) (old : Framer) (f : WireFrame) (hpay : f.payload.length ≤ 255) :
    Decodes P old ([P.hdr1, P.hdr2] ++ f.inner P ++ [f.ck]) (.ok (f.record P)) (f.regs P old 1) :=
  .frame [] [] f (by simp) (by simp) (by simp) (by simp) hpay

/-- Settles O28: the word stands in front of the camera's buffer, and the decode takes exactly it. -/
theorem cameraFrameIsDecoded : Obligations.CameraFrameIsDecoded := by
  intro s command algorithm payload ck hw
  simp only [Instr.wellFormed, Bool.and_eq_true, decide_eq_true_eq] at hw
  obtain ⟨ha, hpay⟩ := hw
  intro f bytes
  have henc : encode s.profile (.cameraFrame command algorithm payload ck) = some (.cf, bytes) := by
    rw [encode_cameraFrame, algoByte_eq ha]
    simp [bytes, f, WireFrame.inner]
  refine ⟨henc, fun hnone => ?_⟩
  have hd : { s.env with camBuf := bytes ++ s.env.camBuf : Env }.delivers bytes s.env.camBuf :=
    ⟨takeFilled_append rfl, List.drop_left, hnone⟩
  rw [exec_cameraFrame henc, frameDecode_takes (s := s.setEnv { s.env with camBuf := bytes ++ s.env.camBuf })
    (decodes_frame s.profile s.frm f hpay) _ hd]
  rfl

/-! ## Request frames and reports (R92, R93, R101) -/

section
variable {s : State}

theorem exec_txKnock (h : s.env.camWrFault = none) : exec .txKnock s = .next (afterCamWrite s.profile.txKnock s) :=
  congrArg Eff.close (camWrite_ok h)

theorem exec_txReqblk (h : s.env.camWrFault = none) : exec .txReqblk s = .next (afterCamWrite s.profile.txReqblk s) :=
  congrArg Eff.close (camWrite_ok h)

theorem exec_txAlgsel (ha : s.profile.hasAlgsel = true) (h : s.env.camWrFault = none) :
    exec .txAlgsel s = .next (afterCamWrite s.profile.txAlgsel s) :=
  (if_pos ha).trans (congrArg Eff.close (camWrite_ok h))

theorem exec_txAlgsel_absent (ha : s.profile.hasAlgsel = false) : exec .txAlgsel s = .next s := if_neg (by simp [ha])

end

/-- A report's own checksum byte is the one that is computed for the response. -/
theorem withChecksum_of_fits {present : Bool} {bytes : List Byte} {ck : Option Byte}
    (h : reportCkFits present bytes ck = true) : withChecksum present bytes = bytes ++ ck.toList := by
  rw [of_decide_eq_true h]
  cases present <;> simp [withChecksum]

theorem packReport_ofNat (index : BitVec 3) (mag : BitVec 7) (freq : Bool) :
    packReport (Fin.ofNat 8 index.toNat) mag freq = [index.setWidth 8, packByte1 mag freq] := by
  have hindex : BitVec.ofNat 8 (Fin.ofNat 8 index.toNat).val = index.setWidth 8 := by revert index; decide
  rw [packReport, hindex]

/-- Settles O32: a request frame is one write; a report's word is the report the row computes. -/
theorem emittedFormats : Obligations.EmittedFormats := by
  intro s
  refine ⟨fun h => ⟨exec_txKnock h, exec_txReqblk h, fun ha => exec_txAlgsel ha h⟩, exec_txAlgsel_absent,
    fun index freq mag ck hw => ⟨_, rfl, ?_⟩, fun b ck hw => ⟨_, rfl, ?_⟩⟩
  · rw [← withChecksum_of_fits hw, ← packReport_ofNat]; rfl
  · rw [← withChecksum_of_fits hw]; rfl

/-! ## Responses (R102, 45_camera_protocol.md R192 to R202) -/

section
variable (s : State)
theorem exec_respOk : exec .respOk s = .next ((handshakeStepOk s).setRet (.bool true)) := rfl
theorem exec_respWrapped : exec .respWrapped s = (wrappedBranch s).answer .block := rfl
theorem exec_respDirect : exec .respDirect s = (directBranch s).answer .block := rfl
theorem exec_respUnknown (cmd : Byte) : exec (.respUnknown cmd) s = (flushNoBlock s).answer .block := rfl
end

section
variable {s : State} {f : Frame} {off : Offsets} {b : Block}

theorem blockOrFlush_covered (hc : covers f off = true) (hb : blockAt f.payload off = some b) :
    blockOrFlush f off s = .ok (some b) (s.setCcp { s.ccp with blk := b, blkValid := true }) := by
  rw [blockOrFlush, if_pos hc, extract, hb]; rfl

theorem blockOrFlush_uncovered (hc : covers f off = false) : blockOrFlush f off s = flushNoBlock s := by
  rw [blockOrFlush, hc]; rfl

/-- The frame a direct response is in: the one in `RES`, or, while `RES` holds no result, the one in the registers. -/
theorem directBranch_frame (h : s.frm.res = some (.ok f) ∨ (s.frm.res = none ∧ f = frameOf s)) :
    directBranch s = blockOrFlush f s.profile.offDirect s := by
  obtain h | ⟨h, rfl⟩ := h <;> rw [directBranch, h]

theorem directBranch_syncError {code : SyncCode} (h : s.frm.res = some (.syncError code)) :
    directBranch s = flushNoBlock s := by
  rw [directBranch, h]

section
variable {bs rest : List Byte} {regs : Framer} (hd : s.env.delivers bs rest)
include hd

theorem wrappedBranch_frame (h : Decodes s.profile s.frm bs (.ok f) regs) :
    wrappedBranch s = blockOrFlush f s.profile.offWrapped (afterReads bs rest ((setCcpPh .nestRx s).setFrm regs)) := by
  rw [wrappedBranch, frameDecode_takes (s := setCcpPh .nestRx s) h rest hd]; rfl

theorem wrappedBranch_syncError {code : SyncCode} (h : Decodes s.profile s.frm bs (.syncError code) regs) :
    wrappedBranch s = flushNoBlock (afterReads bs rest ((setCcpPh .nestRx s).setFrm regs)) := by
  rw [wrappedBranch, frameDecode_takes (s := setCcpPh .nestRx s) h rest hd]; rfl

end

/-- An unrecognized response is flushed (R200). -/
theorem flushNoBlock_of_flushes {cs : List (Vector Byte 4)} {last : Vector Byte 4} {rest : List Byte} {r : FlushResult}
    (h : Flushes s.profile.flushMax (cs ++ [last]) r) (hd : s.env.deliversChunks (cs ++ [last]) rest) :
    flushNoBlock s = .ok none (afterChunks (cs ++ [last]) rest ((setCcpPh .flush s).setFlu ⟨last, cs.length + 1⟩)) := by
  rw [flushNoBlock, flush_of_flushes (s := setCcpPh .flush s) h hd, Eff.andThen_ok]

end

/-- Settles O39: the answers to the handshake, a block of either shape, and the flush that every other response ends in. -/
theorem responseRows : Obligations.ResponseRows := by
  intro s b
  refine ⟨fun hph ha => ?_, fun h => ?_, fun _ => rfl, fun bs rest g regs hdec hd hc hb => ?_, fun f hf hc hb => ?_,
    fun cs last rest fr hfl => ⟨fun hd i hi => ?_, fun bs more r regs hdec hd hc hchunks => ?_⟩⟩
  · rw [exec_respOk, handshakeStepOk, if_pos ⟨hph, ha⟩]; rfl
  · rw [exec_respOk, handshakeStepOk, if_neg (by simpa [imp_iff_not_or] using h)]; rfl
  · rw [exec_respWrapped, wrappedBranch_frame hd hdec, blockOrFlush_covered hc hb]; rfl
  · rw [exec_respDirect, directBranch_frame hf, blockOrFlush_covered hc hb]; rfl
  · have hexec : exec i s = (flushNoBlock s).answer .block := by
      obtain ⟨cmd, rfl⟩ | ⟨rfl, ⟨f, hf, hc⟩ | ⟨code, hcode⟩⟩ := hi
      · exact exec_respUnknown s cmd
      · rw [exec_respDirect, directBranch_frame hf, blockOrFlush_uncovered hc]
      · rw [exec_respDirect, directBranch_syncError hcode]
    rw [hexec, flushNoBlock_of_flushes hfl hd]; rfl
  · have hbranch : wrappedBranch s = flushNoBlock (afterReads bs more ((setCcpPh .nestRx s).setFrm regs)) := by
      cases r with
      | ok g => rw [wrappedBranch_frame hd hdec, blockOrFlush_uncovered (hc g rfl)]
      | syncError code => exact wrappedBranch_syncError hd hdec
    rw [exec_respWrapped, hbranch,
      flushNoBlock_of_flushes (s := afterReads bs more ((setCcpPh .nestRx s).setFrm regs)) hfl hchunks]
    rfl

end Sys2Proof.Machine
end

section
/-! PROOFS. The family 40_checksum.md. The checksum is the library's `List.sum` in eight bits, so that the sum of a
permutation and of a concatenation are the library's lemmas. -/

namespace Sys2Proof

/-- The running sum from the left is the sum of the list (R121). -/
theorem checksum_eq_sum (bs : List Byte) : checksum bs = bs.sum := by
  induction bs with
  | nil => rfl
  | cons b bs ih => rw [checksum_cons, ih, List.sum_cons]

/-- The sum wraps at 256 and nowhere else (R121). -/
theorem checksum_toNat (bs : List Byte) : (checksum bs).toNat = (bs.map BitVec.toNat).sum % 256 := by
  induction bs with
  | nil => rfl
  | cons b bs ih =>
    rw [checksum_cons, BitVec.toNat_add, ih, List.map_cons, List.sum_cons]
    exact Nat.add_mod_mod ..

theorem checksum_perm {bs other : List Byte} (h : bs.Perm other) : checksum other = checksum bs := by
  rw [checksum_eq_sum, checksum_eq_sum, h.sum_eq]

theorem checksum_append (a b : List Byte) : checksum (a ++ b) = checksum a + checksum b := by
  simp only [checksum_eq_sum, List.sum_append]

theorem checksum_insert_zero (a c : List Byte) : checksum (a ++ [0] ++ c) = checksum (a ++ c) := by
  have hzero : checksum [0] = 0 := rfl
  rw [checksum_append, checksum_append, hzero, add_zero, ← checksum_append]

/-- Settles O2: the sum of a concatenation. -/
theorem checksumOfConcatenation : Obligations.ChecksumOfConcatenation := checksum_append

namespace Machine

theorem exec_checksum (bs : List Byte) (s : State) : exec (.checksum bs) s = .next (s.setRet (.byte (checksum bs))) := rfl
theorem exec_accStep (b : Byte) (s : State) : exec (.accStep b) s = .next (accStep b s) := rfl
theorem exec_ckValidate (s : State) : exec .ckValidate s = .next (ckValidate s) := rfl

/-- Settles O1: the sum in naturals, the answer of the row, and the two changes of the bytes that keep the sum. -/
theorem checksumIsTheSumModulo256 : Obligations.ChecksumIsTheSumModulo256 := by
  intro bs s
  refine ⟨checksum_toNat bs, exec_checksum bs s, fun other hperm => checksum_perm hperm, fun a c hbs => ?_⟩
  rw [hbs, checksum_insert_zero]

/-- Settles O3: each row is one update of the framer's registers. -/
theorem accStepAndCkValidate : Obligations.AccStepAndCkValidate :=
  fun b s => ⟨exec_accStep b s, exec_ckValidate s⟩

end Machine

end Sys2Proof
end

section
/-! PROOFS. The family 41_scanner.md. A part of a scan is followed call by call: `m.Makes s es r` says that the effect `m` has
made the calls `es` since the state `s`, or has stopped at the first of them that fails. The rules for one pin call, one sleep
and one sample give those of the parts, and these that of the scan. -/

namespace Sys2Proof.Machine

/-! ## Which call an event is of -/

section
variable (p : Pin) (l : Bool) (d : Nat) (v : Sample)
@[simp] theorem Event.isPin_pin : (Event.pin p l).isPin = true := rfl
@[simp] theorem Event.isPin_sleep : (Event.sleep d).isPin = false := rfl
@[simp] theorem Event.isPin_analog : (Event.analog v).isPin = false := rfl
@[simp] theorem Event.isSleep_pin : (Event.pin p l).isSleep = false := rfl
@[simp] theorem Event.isSleep_sleep : (Event.sleep d).isSleep = true := rfl
@[simp] theorem Event.isSleep_analog : (Event.analog v).isSleep = false := rfl
@[simp] theorem Event.isAnalog_pin : (Event.pin p l).isAnalog = false := rfl
@[simp] theorem Event.isAnalog_sleep : (Event.sleep d).isAnalog = false := rfl
@[simp] theorem Event.isAnalog_analog : (Event.analog v).isAnalog = true := rfl
end

/-! ## Where a scan is after some of its calls -/

/-- What the calls of a scan change besides the answers they take: the scanner's registers, its two pins, the counter of the
multiplexer (logs 15, 23). -/
structure ScanRegs where
  scn : Scanner
  muxReset : Bool
  muxAdv : Bool
  pulses : Nat

/-- What a state has in them. -/
def State.scanRegs (s : State) : ScanRegs := ⟨s.scn, s.pins.muxReset, s.pins.muxAdv, s.env.muxPulses⟩

/-- The pins, the direction pin as in `s`: a scan does not touch it. -/
def ScanRegs.pins (r : ScanRegs) (s : State) : Pins := { s.pins with muxReset := r.muxReset, muxAdv := r.muxAdv }

/-- After the calls whose events are `es`, made since `s`. -/
def scanned (s : State) (es : List Event) (r : ScanRegs) : State :=
  { s with
    scn := r.scn
    pins := r.pins s
    env := { s.env with
      pin := s.env.pin.drop (es.countP Event.isPin)
      clk := s.env.clk.drop (es.countP Event.isSleep)
      adc := s.env.adc.drop (es.countP Event.isAnalog)
      muxPulses := r.pulses }
    fresh := s.fresh + (es.countP Event.isAnalog - s.env.adc.length)
    trace := es.reverse ++ s.trace }

/-- Calls that take no sample leave the analog input and the counter of free samples. -/
theorem scanned_of_no_sample {s : State} {es : List Event} {r : ScanRegs} (h : es.countP Event.isAnalog = 0) :
    scanned s es r = { s with
      scn := r.scn
      pins := r.pins s
      env := { s.env with
        pin := s.env.pin.drop (es.countP Event.isPin)
        clk := s.env.clk.drop (es.countP Event.isSleep)
        muxPulses := r.pulses }
      trace := es.reverse ++ s.trace } := by
  simp [scanned, h]

theorem scanned_nil (s : State) : scanned s [] s.scanRegs = s := by
  simp [scanned, State.scanRegs, ScanRegs.pins]

/-- None of the calls whose events are `es`, made since `s`, raises `Fatal`. -/
def CallsPass (s : State) (es : List Event) : Prop :=
  clear (es.countP Event.isPin) s.env.pin ∧ clear (es.countP Event.isSleep) s.env.clk
    ∧ ∀ a ∈ s.env.adc.take (es.countP Event.isAnalog), a.isSample = true

theorem forall_mem_take_zero {α : Type} (p : α → Prop) (l : List α) : ∀ a ∈ l.take 0, p a := by simp

theorem forall_mem_take_mono {α : Type} {p : α → Prop} {l : List α} {m n : Nat} (hmn : m ≤ n)
    (h : ∀ a ∈ l.take n, p a) : ∀ a ∈ l.take m, p a :=
  fun a ha => h a ((List.take_sublist_take_left hmn).subset ha)

/-- One entry more: the first of those that were left. -/
theorem forall_mem_take_succ {α : Type} (p : α → Prop) (l : List α) (n : Nat) :
    (∀ a ∈ l.take (n + 1), p a) ↔ (∀ a ∈ l.take n, p a) ∧ ∀ a ∈ (l.drop n).head?, p a := by
  simp [List.take_add_one, List.head?_drop, or_imp, forall_and]

theorem firstRaises_eq_false_iff (l : List Bool) : firstRaises l = false ↔ ∀ b ∈ l.head?, b = false := by
  cases l <;> simp [firstRaises]

theorem clear_succ_iff (n : Nat) (l : List Bool) : clear (n + 1) l ↔ clear n l ∧ firstRaises (l.drop n) = false := by
  rw [firstRaises_eq_false_iff]
  exact forall_mem_take_succ _ l n

theorem callsPass_nil (s : State) : CallsPass s [] :=
  ⟨forall_mem_take_zero _ _, forall_mem_take_zero _ _, forall_mem_take_zero _ _⟩

theorem scanReaches_iff (s : State) (n : Nat) : scanReaches s n ↔ CallsPass s (scanFirst s n) := Iff.rfl

/-- What passes passes from the start on. -/
theorem CallsPass.of_prefix {s : State} {made es : List Event} (hpre : made <+: es) (h : CallsPass s es) :
    CallsPass s made := by
  obtain ⟨hpin, hclk, hadc⟩ := h
  exact ⟨forall_mem_take_mono hpre.sublist.countP_le hpin, forall_mem_take_mono hpre.sublist.countP_le hclk,
    forall_mem_take_mono hpre.sublist.countP_le hadc⟩

section
variable {s : State} {es : List Event} {r : ScanRegs}

theorem callsPass_pin_iff (p : Pin) (l : Bool) :
    CallsPass s (es ++ [.pin p l]) ↔ CallsPass s es ∧ (scanned s es r).env.pinFails = false := by
  simp [CallsPass, clear_succ_iff, Env.pinFails, scanned, and_assoc, and_left_comm, and_comm]

theorem callsPass_sleep_iff (d : Nat) :
    CallsPass s (es ++ [.sleep d]) ↔ CallsPass s es ∧ (scanned s es r).env.clkFails = false := by
  simp [CallsPass, clear_succ_iff, Env.clkFails, scanned, and_assoc, and_left_comm, and_comm]

theorem callsPass_analog_iff (v : Sample) :
    CallsPass s (es ++ [.analog v]) ↔ CallsPass s es ∧ ∀ a ∈ (scanned s es r).env.adc.head?, a.isSample = true := by
  simp [CallsPass, forall_mem_take_succ, scanned, and_assoc]

end

/-! ## The rule for sequences -/

/-- After the calls of `made` and one more, that of `e`, which raised `Fatal(c)`. -/
def scanFailed (s : State) (made : List Event) (e : Event) (c : FatalCause) (r : ScanRegs) : State :=
  { scanned s (made ++ [e]) r with
    fresh := (scanned s made r).fresh
    trace := .fatal c :: made.reverse ++ s.trace }

/-- The effect has stopped at the first call of `es` that fails. -/
def ScanStops (s : State) (es : List Event) (c : FatalCause) (t : State) : Prop :=
  ∃ made e r, made ++ [e] <+: es ∧ CallsPass s made ∧ ¬ CallsPass s (made ++ [e]) ∧ e.failure = some c
    ∧ t = scanFailed s made e c r

/-- The effect has made the calls of `es` since `s`, and leaves the registers at `r`, or it has stopped at the first call
that fails. -/
def Eff.Makes (s : State) (es : List Event) (r : ScanRegs) : Eff Unit → Prop
  | .ok _ t => CallsPass s es ∧ t = scanned s es r
  | .fatal c t => ScanStops s es c t
  | .camFault _ _ | .blocked _ | .stop _ => False

section
variable {s : State} {es all : List Event} {r r' : ScanRegs} {m : Eff Unit}

/-- The rule for sequences: the second part makes its calls after those of the first. -/
theorem Eff.Makes.andThen {f : Unit → State → Eff Unit} (hm : m.Makes s es r) (hes : es <+: all)
    (hf : CallsPass s es → (f () (scanned s es r)).Makes s all r') : (m.andThen f).Makes s all r' := by
  cases m with
  | ok a t =>
    obtain ⟨hpass, rfl⟩ := hm
    exact hf hpass
  | fatal c t =>
    obtain ⟨made, e, r, hpre, hstop⟩ := hm
    exact ⟨made, e, r, hpre.trans hes, hstop⟩
  | camFault | blocked | stop => exact hm.elim

/-- The rule for a register update after the calls. -/
theorem Eff.Makes.map {g : State → State} (hm : m.Makes s es r) (hg : g (scanned s es r) = scanned s es r') :
    (m.andThen fun _ t => .ok () (g t)).Makes s es r' :=
  hm.andThen (List.prefix_refl _) fun hpass => ⟨hpass, hg⟩

theorem Eff.Makes.eq_ok (hm : m.Makes s es r) (hpass : CallsPass s es) : m = .ok () (scanned s es r) := by
  cases m with
  | ok a t => rw [hm.2]
  | fatal c t =>
    obtain ⟨made, e, r, hpre, -, hfail, -⟩ := hm
    exact absurd (hpass.of_prefix hpre) hfail
  | camFault | blocked | stop => exact hm.elim

theorem Eff.Makes.eq_fatal (hm : m.Makes s es r) (hfail : ¬ CallsPass s es) :
    ∃ c t, m = .fatal c t ∧ ScanStops s es c t := by
  cases m with
  | ok a t => exact absurd hm.1 hfail
  | fatal c t => exact ⟨c, t, rfl, hm⟩
  | camFault | blocked | stop => exact hm.elim

/-- A call that raises is the first one to. -/
theorem scanStops_of_call {e : Event} {c : FatalCause} (hpass : CallsPass s es) (hfail : ¬ CallsPass s (es ++ [e]))
    (hc : e.failure = some c) {t : State} (ht : t = scanFailed s es e c r) : ScanStops s (es ++ [e]) c t :=
  ⟨es, e, r, List.prefix_refl _, hpass, hfail, hc, ht⟩

/-! ## One call -/

/-- The registers after a call of a multiplexer pin; the direction pin is none of the scanner's. -/
def ScanRegs.drive (r : ScanRegs) (pin : Pin) (l : Bool) : ScanRegs :=
  match pin with
  | .dir => r
  | .muxReset => { r with muxReset := l }
  | .muxAdv => { r with muxAdv := l }

theorem pinSet_makes (hpass : CallsPass s es) {pin : Pin} (hpin : pin ≠ .dir) (l : Bool) :
    (pinSet pin l (scanned s es r)).Makes s (es ++ [.pin pin l]) (r.drive pin l) := by
  have hiff := callsPass_pin_iff (s := s) (es := es) (r := r) pin l
  cases h : (scanned s es r).env.pinFails with
  | false =>
    rw [pinSet_ok h]
    refine ⟨hiff.2 ⟨hpass, h⟩, ?_⟩
    cases pin with
    | dir => exact absurd rfl hpin
    | muxReset | muxAdv =>
      simp [scanned, ScanRegs.drive, ScanRegs.pins, Pins.drive, State.setEnv, State.setPins, State.log]
  | true =>
    rw [pinSet_fatal h]
    refine scanStops_of_call (r := r) hpass (by simp [hiff, h]) rfl ?_
    simp [scanFailed, scanned, ScanRegs.pins, State.setEnv, State.log]

theorem sleep_makes (hpass : CallsPass s es) (d : Nat) : (sleep d (scanned s es r)).Makes s (es ++ [.sleep d]) r := by
  have hiff := callsPass_sleep_iff (s := s) (es := es) (r := r) d
  cases h : (scanned s es r).env.clkFails with
  | false =>
    rw [sleep_ok h]
    refine ⟨hiff.2 ⟨hpass, h⟩, ?_⟩
    simp [scanned, ScanRegs.pins, State.setEnv, State.log]
  | true =>
    rw [sleep_fatal h]
    refine scanStops_of_call (r := r) hpass (by simp [hiff, h]) rfl ?_
    simp [scanFailed, scanned, ScanRegs.pins, State.setEnv, State.log]

/-- The sample goes into `S[K]` (R135). -/
def ScanRegs.store (r : ScanRegs) (v : Sample) : ScanRegs := { r with scn := { r.scn with s := r.scn.s.set r.scn.k v } }

theorem getElem?_of_drop_eq_cons {α : Type} {l rest : List α} {a : α} {k : Nat} (h : l.drop k = a :: rest) :
    l[k]? = some a ∧ l.drop (k + 1) = rest ∧ k < l.length := by
  have hk : l[k]? = some a := by rw [← List.head?_drop, h, List.head?_cons]
  exact ⟨hk, by rw [← List.tail_drop, h, List.tail_cons], (List.getElem?_eq_some_iff.1 hk).1⟩

theorem sample_makes {v : Sample} (hpass : CallsPass s es) (hv : sampleAt s (es.countP Event.isAnalog) = v) :
    (sample (scanned s es r)).Makes s (es ++ [.analog v]) (r.store v) := by
  have hiff := callsPass_analog_iff (s := s) (es := es) (r := r) v
  rcases h : (scanned s es r).env.adc with _ | ⟨w | _, rest⟩
  · have hlen : s.env.adc.length ≤ es.countP Event.isAnalog := List.drop_eq_nil_iff.1 h
    have hw : Config.freeSample (scanned s es r).fresh = v := by
      rw [← hv, sampleAt, List.getElem?_eq_none hlen]; rfl
    rw [sample, analogRead_free h, hw]
    refine ⟨hiff.2 ⟨hpass, by simp [h]⟩, ?_⟩
    have hfree : es.countP Event.isAnalog + 1 - s.env.adc.length = es.countP Event.isAnalog - s.env.adc.length + 1 := by
      omega
    simp [scanned, ScanRegs.store, ScanRegs.pins, State.setFresh, State.setScn, State.log, hlen, hfree,
      Nat.le_succ_of_le hlen, List.drop_of_length_le, Nat.add_assoc]
  · obtain ⟨hk, hrest, hlt⟩ := getElem?_of_drop_eq_cons (l := s.env.adc) h
    obtain rfl : w = v := by rw [← hv, sampleAt, hk]
    rw [sample, analogRead_sample h]
    refine ⟨hiff.2 ⟨hpass, by simp [h, AdcAnswer.isSample]⟩, ?_⟩
    have hfree : es.countP Event.isAnalog + 1 - s.env.adc.length = es.countP Event.isAnalog - s.env.adc.length := by
      omega
    simp [scanned, ScanRegs.store, ScanRegs.pins, State.setEnv, State.setScn, State.log, hrest, hfree]
  · obtain ⟨-, hrest, -⟩ := getElem?_of_drop_eq_cons (l := s.env.adc) h
    rw [sample, analogRead_fatal h]
    refine scanStops_of_call (r := r) hpass (by simp [hiff, h, AdcAnswer.isSample]) rfl ?_
    simp [scanFailed, scanned, ScanRegs.pins, State.setEnv, State.log, hrest]

/-! ## The parts of a scan -/

/-- One half of a pulse: the call of the pin, after which the model's `half` says which call is due, and the multiplexer's
counter has moved (logs 15, 23). -/
def pulseHalf (pin : Pin) (l half : Bool) (move : Nat → Nat) (s : State) : Eff Unit :=
  (pinSet pin l s).andThen fun _ t => .ok () (setMuxPulses (move t.env.muxPulses) (setHalf half t))

/-- A pulse of a line whose asserted level is `l`. -/
def pulse (pin : Pin) (l : Bool) (move : Nat → Nat) (s : State) : Eff Unit :=
  (pulseHalf pin l true id s).andThen fun _ t => pulseHalf pin (!l) false move t

theorem muxResetPulse_eq (s : State) :
    muxResetPulse s = pulse .muxReset s.profile.muxResetActive (fun _ => 0) s := by
  unfold muxResetPulse muxResetAssert pulse pulseHalf
  rcases pinSet_cases .muxReset s.profile.muxResetActive s with h | h <;> rw [h] <;> rfl

theorem muxAdvancePulse_eq (s : State) :
    muxAdvancePulse s = pulse .muxAdv s.profile.muxAdvActive (· + 1) s := by
  unfold muxAdvancePulse muxAdvanceAssert pulse pulseHalf
  rcases pinSet_cases .muxAdv s.profile.muxAdvActive s with h | h <;> rw [h] <;> rfl

/-- The registers after a half of a pulse that leaves the counter at `n`. -/
def ScanRegs.pulsed (r : ScanRegs) (half : Bool) (n : Nat) : ScanRegs :=
  { r with scn := { r.scn with half := half }, pulses := n }

/-- The two events of a pulse (R132, R133). -/
def pulseEvents (pin : Pin) (l : Bool) : List Event := [.pin pin l, .pin pin (!l)]

theorem pulseHalf_makes (hpass : CallsPass s es) {pin : Pin} (hpin : pin ≠ .dir) (l half : Bool) (move : Nat → Nat) :
    (pulseHalf pin l half move (scanned s es r)).Makes s (es ++ [.pin pin l])
      ((r.drive pin l).pulsed half (move (r.drive pin l).pulses)) :=
  (pinSet_makes hpass hpin l).map rfl

theorem pulse_makes (hpass : CallsPass s es) {pin : Pin} (hpin : pin ≠ .dir) (l : Bool) (move : Nat → Nat) :
    (pulse pin l move (scanned s es r)).Makes s (es ++ pulseEvents pin l)
      ((r.drive pin (!l)).pulsed false (move r.pulses)) := by
  rw [pulseEvents, List.append_cons]
  refine (pulseHalf_makes hpass hpin l true id).andThen (List.prefix_append _ _) fun hp => ?_
  have hrelease := pulseHalf_makes (r := (r.drive pin l).pulsed true r.pulses) hp hpin (!l) false move
  cases pin with
  | dir => exact absurd rfl hpin
  | muxReset | muxAdv => exact hrelease

def ScanRegs.inPhase (r : ScanRegs) (ph : ScnPh) : ScanRegs := { r with scn := { r.scn with ph := ph } }

/-- Writing the phase changes the registers and makes no call. -/
theorem setScnPh_scanned (s : State) (es : List Event) (r : ScanRegs) (ph : ScnPh) :
    setScnPh ph (scanned s es r) = scanned s es (r.inPhase ph) := rfl

theorem settle_makes (hpass : CallsPass s es) :
    (settle (scanned s es r)).Makes s (es ++ [.sleep s.profile.tClkSettle, .sleep s.profile.tAdcSettle])
      (r.inPhase .settleAdc) := by
  rw [List.append_cons]
  exact (sleep_makes (r := r.inPhase .settleClk) hpass _).andThen (List.prefix_append _ _)
    fun hp => sleep_makes (r := r.inPhase .settleAdc) hp _

def ScanRegs.atChannel (r : ScanRegs) (k : Fin 8) : ScanRegs := { r with scn := { r.scn with k := k } }

/-- The registers after the visit of channel `K`, whose sample is `v`. -/
def ScanRegs.visited (r : ScanRegs) (P : Profile) (v : Sample) : ScanRegs :=
  (((r.drive .muxAdv (!P.muxAdvActive)).pulsed false (r.pulses + 1)).inPhase .sample).store v

theorem countP_analog_visitEvents (P : Profile) (v : Sample) : (visitEvents P v).countP Event.isAnalog = 1 := rfl

theorem visitChannel_makes {v : Sample} (hpass : CallsPass s es) (hv : sampleAt s (es.countP Event.isAnalog) = v) :
    (visitChannel (scanned s es r)).Makes s (es ++ visitEvents s.profile v) (r.visited s.profile v) := by
  have hevents : es ++ visitEvents s.profile v = es ++ pulseEvents .muxAdv s.profile.muxAdvActive
      ++ [.sleep s.profile.tClkSettle, .sleep s.profile.tAdcSettle] ++ [.analog v] := by
    simp [visitEvents, pulseEvents]
  rw [hevents, visitChannel, muxAdvancePulse_eq]
  refine (pulse_makes (pin := .muxAdv) (r := r.inPhase .adv) hpass nofun s.profile.muxAdvActive _).andThen (by simp)
    fun hp => ?_
  refine (settle_makes hp).andThen (by simp) fun hp' => ?_
  exact sample_makes hp' (by simpa [pulseEvents] using hv)

/-- The channels that follow, each after the delay between channels, with the samples `v` (R136). -/
def laterEvents (P : Profile) (v : Nat → Sample) (ks : List (Fin 8)) : List Event :=
  (ks.map fun k => .sleep P.tInterch :: visitEvents P (v k.val)).flatten

/-- The registers after the visits of the channels `ks`. -/
def ScanRegs.visitedLater (P : Profile) (v : Nat → Sample) (r : ScanRegs) (ks : List (Fin 8)) : ScanRegs :=
  ks.foldl (fun r k => (r.atChannel k).visited P (v k.val)) r

/-- The channels after `k`, `k` itself having been sampled, so that the next read answers the sample of the next channel. -/
theorem scanLater_makes {k : Fin 8} {ks : List (Fin 8)} (hks : ChannelsAfter k ks) (hpass : CallsPass s es)
    (hk : es.countP Event.isAnalog = k.val + 1) :
    (scanLater ks (scanned s es r)).Makes s (es ++ laterEvents s.profile (sampleAt s) ks)
      (r.visitedLater s.profile (sampleAt s) ks) := by
  induction ks generalizing k es r with
  | nil => exact ⟨by simpa [laterEvents], by simp [laterEvents, ScanRegs.visitedLater]⟩
  | cons j js ih =>
    obtain ⟨hk7, rfl, hjs⟩ := hks
    have hval : (k + 1).val = k.val + 1 := by omega
    have hevents : es ++ laterEvents s.profile (sampleAt s) ((k + 1) :: js)
        = es ++ [.sleep s.profile.tInterch] ++ visitEvents s.profile (sampleAt s (k + 1).val)
          ++ laterEvents s.profile (sampleAt s) js := by
      simp [laterEvents]
    rw [hevents]
    refine (sleep_makes (r := (r.atChannel (k + 1)).inPhase .interch) hpass s.profile.tInterch).andThen (by simp)
      fun hp => ?_
    refine (visitChannel_makes (v := sampleAt s (k + 1).val) hp ?_).andThen (by simp) fun hp' => ?_
    · simp [hk, hval]
    · exact ih hjs hp' (by simp [countP_analog_visitEvents, hk, hval])

end

/-! ## The parts called by themselves -/

section
variable {s : State}

theorem exec_muxResetPulse (s : State) :
    exec .muxResetPulse s = (pulse .muxReset s.profile.muxResetActive (fun _ => 0) s).close :=
  congrArg Eff.close (muxResetPulse_eq s)

theorem exec_muxAdvancePulse (s : State) :
    exec .muxAdvancePulse s = (pulse .muxAdv s.profile.muxAdvActive (· + 1) s).close :=
  congrArg Eff.close (muxAdvancePulse_eq s)

theorem exec_settle (s : State) : exec .settle s = (settle s).close := rfl
theorem exec_sample (s : State) : exec .sample s = (sample s).close := rfl

theorem pulse_ok (h : clear 2 s.env.pin) {pin : Pin} (hpin : pin ≠ .dir) (l : Bool) (move : Nat → Nat) :
    pulse pin l move s = .ok () { s with
      pins := s.pins.drive pin (!l)
      scn := { s.scn with half := false }
      env := { s.env with pin := s.env.pin.drop 2, muxPulses := move s.env.muxPulses }
      trace := .pin pin (!l) :: .pin pin l :: s.trace } := by
  have hmakes := pulse_makes (r := s.scanRegs) (callsPass_nil s) hpin l move
  rw [scanned_nil] at hmakes
  have hpass : CallsPass s (pulseEvents pin l) := ⟨h, forall_mem_take_zero _ _, forall_mem_take_zero _ _⟩
  rw [hmakes.eq_ok hpass, scanned_of_no_sample rfl]
  cases pin with
  | dir => exact absurd rfl hpin
  | muxReset | muxAdv => rfl

/-- The assertion of a pulse fails. -/
theorem pulse_fatal_first (h : s.env.pinFails = true) (pin : Pin) (l : Bool) (move : Nat → Nat) :
    pulse pin l move s = .fatal .gpio ((s.setEnv { s.env with pin := s.env.pin.tail }).log (.fatal .gpio)) := by
  rw [pulse, pulseHalf, pinSet_fatal h]; rfl

/-- The release of a pulse fails: the line stays asserted. -/
theorem pulse_fatal_second {rest : List Bool} (h : s.env.pin = false :: true :: rest) (pin : Pin) (l : Bool)
    (move : Nat → Nat) :
    pulse pin l move s = .fatal .gpio { s with
      pins := s.pins.drive pin l
      scn := { s.scn with half := true }
      env := { s.env with pin := rest }
      trace := .fatal .gpio :: .pin pin l :: s.trace } := by
  have hassert : s.env.pinFails = false := by rw [Env.pinFails, h]; rfl
  rw [pulse, pulseHalf, pinSet_ok hassert, h, Eff.andThen_ok, Eff.andThen_ok, pulseHalf, pinSet_fatal rfl]
  rfl

theorem settle_ok (h : clear 2 s.env.clk) :
    settle s = .ok () { s with
      scn := { s.scn with ph := .settleAdc }
      env := { s.env with clk := s.env.clk.drop 2 }
      trace := .sleep s.profile.tAdcSettle :: .sleep s.profile.tClkSettle :: s.trace } := by
  have hmakes := settle_makes (r := s.scanRegs) (callsPass_nil s)
  rw [scanned_nil] at hmakes
  have hpass : CallsPass s [.sleep s.profile.tClkSettle, .sleep s.profile.tAdcSettle] :=
    ⟨forall_mem_take_zero _ _, h, forall_mem_take_zero _ _⟩
  rw [hmakes.eq_ok hpass, scanned_of_no_sample rfl]
  rfl

theorem settle_fatal_first (h : s.env.clkFails = true) :
    settle s = .fatal .clock { s with
      scn := { s.scn with ph := .settleClk }
      env := { s.env with clk := s.env.clk.tail }
      trace := .fatal .clock :: s.trace } := by
  rw [settle, sleep_fatal (s := setScnPh .settleClk s) h]; rfl

theorem settle_fatal_second {rest : List Bool} (h : s.env.clk = false :: true :: rest) :
    settle s = .fatal .clock { s with
      scn := { s.scn with ph := .settleAdc }
      env := { s.env with clk := rest }
      trace := .fatal .clock :: .sleep s.profile.tClkSettle :: s.trace } := by
  have hclk : (setScnPh .settleClk s).env.clk = false :: true :: rest := h
  have hfirst : (setScnPh .settleClk s).env.clkFails = false := by rw [Env.clkFails, hclk]; rfl
  rw [settle, sleep_ok hfirst, hclk, Eff.andThen_ok, sleep_fatal rfl]
  rfl

theorem sample_ok (h : ∀ a ∈ s.env.adc.take 1, a.isSample = true) :
    sample s = .ok () (scanned s [.analog (sampleAt s 0)] (s.scanRegs.store (sampleAt s 0))) := by
  have hmakes := sample_makes (v := sampleAt s 0) (r := s.scanRegs) (callsPass_nil s) rfl
  rw [scanned_nil] at hmakes
  exact hmakes.eq_ok ⟨forall_mem_take_zero _ _, forall_mem_take_zero _ _, h⟩

end

/-- Settles O13: each pulse is `pulse` on its line; where no call fails, a part makes its calls from the very state it starts
in (`scanned_nil`), and its first and its second failure are equations of their own. -/
theorem partsOfAScan : Obligations.PartsOfAScan := by
  intro s
  refine ⟨fun h => ?_, fun h i hi => ?_, fun rest h => ?_, fun h => ?_, fun h => ?_, fun rest h => ?_, fun h => ?_,
    fun rest h => ?_⟩
  · rw [exec_muxResetPulse, exec_muxAdvancePulse, pulse_ok (pin := .muxReset) h nofun,
      pulse_ok (pin := .muxAdv) h nofun]
    exact ⟨rfl, rfl⟩
  · obtain rfl | rfl : i = .muxResetPulse ∨ i = .muxAdvancePulse := by simpa using hi
    · rw [exec_muxResetPulse, pulse_fatal_first h]; rfl
    · rw [exec_muxAdvancePulse, pulse_fatal_first h]; rfl
  · rw [exec_muxResetPulse, exec_muxAdvancePulse, pulse_fatal_second h, pulse_fatal_second h]
    exact ⟨rfl, rfl⟩
  · rw [exec_settle, settle_ok h]; rfl
  · rw [exec_settle, settle_fatal_first h]; rfl
  · rw [exec_settle, settle_fatal_second h]; rfl
  · rw [exec_sample, sample_ok h]; rfl
  · rw [exec_sample, sample, analogRead_fatal h]; rfl

/-! ## The scan -/

/-- The registers at the start of a scan (R131). -/
def ScanRegs.started (r : ScanRegs) : ScanRegs := (r.inPhase .reset).pulsed false r.pulses

theorem scanStart_eq_scanned (s : State) : scanStart s = scanned s [] s.scanRegs.started :=
  congrArg scanStart (scanned_nil s).symm

/-- The registers after the reset pulse, at the first channel. -/
def ScanRegs.reset (r : ScanRegs) (P : Profile) : ScanRegs :=
  ((r.started.drive .muxReset (!P.muxResetActive)).pulsed false 0).atChannel 0

/-- The registers after a scan without a fault, in which the analog input answers `v`. -/
def ScanRegs.done (r : ScanRegs) (P : Profile) (v : Nat → Sample) : ScanRegs :=
  (((r.reset P).visited P (v 0)).visitedLater P v laterChannels).inPhase .done

theorem scanEvents_eq (P : Profile) (v : Nat → Sample) :
    scanEvents P v = pulseEvents .muxReset P.muxResetActive ++ visitEvents P (v 0) ++ laterEvents P v laterChannels := by
  simp [scanEvents, pulseEvents, laterEvents, laterChannels]

theorem setK_scanned (s : State) (es : List Event) (r : ScanRegs) (k : Fin 8) :
    setK k (scanned s es r) = scanned s es (r.atChannel k) := rfl

/-- The 49 calls of a scan in order (R131, R139), or those before the first that fails. -/
theorem scan_makes (s : State) :
    (scan s).Makes s (scanEvents s.profile (sampleAt s)) (s.scanRegs.done s.profile (sampleAt s)) := by
  rw [scanEvents_eq, scan, scanStart_eq_scanned, muxResetPulse_eq]
  refine (pulse_makes (pin := .muxReset) (callsPass_nil s) nofun s.profile.muxResetActive _).andThen (by simp)
    fun hp => ?_
  rw [setK_scanned]
  refine (visitChannel_makes (r := s.scanRegs.reset s.profile) (v := sampleAt s 0) hp rfl).andThen (by simp) fun hp' => ?_
  refine (scanLater_makes channelsAfter_zero hp' ?_).map (setScnPh_scanned ..)
  simp [pulseEvents, countP_analog_visitEvents]

theorem exec_scan (s : State) : exec .scan s = (scan s).close := rfl

/-- Eight writes, one to each channel, leave nothing of what `S` held. -/
theorem set_all_eight (v : Vector Sample 8) (a b c d e f g h : Sample) :
    (((((((v.set 0 a).set 1 b).set 2 c).set 3 d).set 4 e).set 5 f).set 6 g).set 7 h = #v[a, b, c, d, e, f, g, h] := by
  apply Vector.ext
  intro i hi
  interval_cases i <;> simp

theorem scanRegs_done (s : State) : s.scanRegs.done s.profile (sampleAt s) = (afterScan s).scanRegs := by
  have hset := set_all_eight s.scn.s (sampleAt s 0) (sampleAt s 1) (sampleAt s 2) (sampleAt s 3) (sampleAt s 4)
    (sampleAt s 5) (sampleAt s 6) (sampleAt s 7)
  simp [ScanRegs.done, ScanRegs.visitedLater, laterChannels, ScanRegs.reset, ScanRegs.started, ScanRegs.visited,
    ScanRegs.atChannel, ScanRegs.inPhase, ScanRegs.store, ScanRegs.pulsed, ScanRegs.drive, State.scanRegs, afterScan, hset]

theorem scanned_done (s : State) :
    scanned s (scanEvents s.profile (sampleAt s)) (s.scanRegs.done s.profile (sampleAt s)) = afterScan s := by
  rw [scanRegs_done]
  rfl

theorem scanCalm_iff (s : State) : s.env.scanCalm ↔ CallsPass s (scanEvents s.profile (sampleAt s)) := Iff.rfl

theorem scanFirst_of_prefix {s : State} {made : List Event} (h : made <+: scanEvents s.profile (sampleAt s)) :
    scanFirst s made.length = made := (List.prefix_iff_eq_take.1 h).symm

/-- Settles O14: a scan makes the calls of `scanEvents` or stops at the first that fails (`scan_makes`), and a calm environment
is one in which all of them pass (`scanCalm_iff`). -/
theorem scanTakesEightSamplesOrStops : Obligations.ScanTakesEightSamplesOrStops := by
  intro s
  refine ⟨fun hcalm => ?_, fun hfail => ?_⟩
  · rw [exec_scan, (scan_makes s).eq_ok ((scanCalm_iff s).1 hcalm), Eff.close_ok, scanned_done]
  · obtain ⟨c, t, hscan, made, e, r, hpre, hpass, hstop, hc, rfl⟩ :=
      (scan_makes s).eq_fatal (mt (scanCalm_iff s).2 hfail)
    have hmade : scanFirst s made.length = made := scanFirst_of_prefix ((List.prefix_append _ _).trans hpre)
    have hnext : scanFirst s (made.length + 1) = made ++ [e] := by simpa using scanFirst_of_prefix hpre
    refine ⟨made.length, e, c, r.scn, r.pins s, r.pulses, ?_, ?_, ?_, hc, rfl, ?_⟩
    · rwa [scanReaches_iff, hmade]
    · rwa [scanReaches_iff, hnext]
    · obtain ⟨rest, hrest⟩ := hpre
      rw [← hrest]; simp
    · rw [exec_scan, hscan, scanEnv, hnext, hmade]; rfl

end Sys2Proof.Machine
end

section
/-! PROOFS. The family 42_selector.md. The comparison and the rescale of the model are on the fractions that hold the samples;
`sampleGt_iff` and `floor_sampleValue_mul` carry them to the rational values, and the rest is said of those. -/

namespace Sys2Proof.Machine

/-! ## The value of a sample -/

theorem sample_den_pos (v : Sample) : (0 : ℚ) < v.den := Nat.cast_pos.2 v.den_pos

/-- The comparison of the fractions is that of the values (R141). -/
theorem sampleGt_iff (a b : Sample) : sampleGt a b = true ↔ sampleValue b < sampleValue a := by
  rw [sampleValue, sampleValue, div_lt_div_iff₀ (sample_den_pos b) (sample_den_pos a), sampleGt, decide_eq_true_iff]
  norm_cast

theorem sampleValue_lt_one_iff (v : Sample) : sampleValue v < 1 ↔ v.num < v.den := by
  rw [sampleValue, div_lt_one (sample_den_pos v), Nat.cast_lt]

theorem sampleValue_eq_one_iff (v : Sample) : sampleValue v = 1 ↔ v.num = v.den := by
  rw [sampleValue, div_eq_one_iff_eq (sample_den_pos v).ne', Nat.cast_inj]

/-! ## The argmax (R141) -/

/-- Among the channels up to `k` none has a greater sample than `i`, and every channel before `i` has a smaller one. -/
def FirstMaximum (v : Vector Sample 8) (k i : Fin 8) : Prop :=
  (∀ j ≤ k, sampleValue v[j] ≤ sampleValue v[i]) ∧ i ≤ k ∧ ∀ j < i, sampleValue v[j] < sampleValue v[i]

theorem firstMaximum_zero (v : Vector Sample 8) : FirstMaximum v 0 0 :=
  ⟨fun j hj => by rw [Fin.le_zero_iff.1 hj], le_rfl, fun j hj => absurd hj (Fin.not_lt_zero j)⟩

/-- The channels up to the next one are those up to this one, and the next. -/
theorem le_next_iff {k : Fin 8} (hk : k ≠ 7) (j : Fin 8) : j ≤ k + 1 ↔ j ≤ k ∨ j = k + 1 := by
  revert k j; decide

theorem lt_next_iff {k : Fin 8} (hk : k ≠ 7) (j : Fin 8) : j < k + 1 ↔ j ≤ k := by
  revert k j; decide

/-- One comparison: the next channel takes over exactly when its sample is greater. -/
theorem FirstMaximum.next {v : Vector Sample 8} {k i : Fin 8} (h : FirstMaximum v k i) (hk : k ≠ 7) :
    FirstMaximum v (k + 1) (if sampleGt v[k + 1] v[i] then k + 1 else i) := by
  obtain ⟨hmax, hik, hfirst⟩ := h
  split
  · rename_i hgt
    have hbelow : ∀ j ≤ k, sampleValue v[j] < sampleValue v[k + 1] := fun j hj =>
      (hmax j hj).trans_lt ((sampleGt_iff _ _).1 hgt)
    refine ⟨fun j hj => ?_, le_rfl, fun j hj => hbelow j ((lt_next_iff hk j).1 hj)⟩
    obtain hj | rfl := (le_next_iff hk j).1 hj
    · exact (hbelow j hj).le
    · exact le_rfl
  · rename_i hgt
    refine ⟨fun j hj => ?_, (le_next_iff hk i).2 (.inl hik), hfirst⟩
    obtain hj | rfl := (le_next_iff hk j).1 hj
    · exact hmax j hj
    · exact not_lt.1 (mt (sampleGt_iff _ _).2 hgt)

theorem argmaxFrom_firstMaximum {v : Vector Sample 8} {k i : Fin 8} {ks : List (Fin 8)} (hks : ChannelsAfter k ks)
    (h : FirstMaximum v k i) : FirstMaximum v 7 (argmaxFrom v i ks) := by
  induction ks generalizing k i with
  | nil => obtain rfl : k = 7 := hks; exact h
  | cons j js ih =>
    obtain ⟨hk, rfl, hjs⟩ := hks
    exact ih hjs (h.next hk)

theorem argmaxOf_firstMaximum (v : Vector Sample 8) : FirstMaximum v 7 (argmaxOf v) :=
  argmaxFrom_firstMaximum channelsAfter_zero (firstMaximum_zero v)

/-- Settles O15: the scan from the left keeps the first maximum so far (`FirstMaximum.next`), up to the last channel. -/
theorem argmaxIsTheSmallestMaximum : Obligations.ArgmaxIsTheSmallestMaximum := by
  intro s
  obtain ⟨hmax, -, hfirst⟩ := argmaxOf_firstMaximum s.scn.s
  exact ⟨argmaxOf s.scn.s, fun k => hmax k (Fin.le_last k), hfirst, rfl⟩

/-! ## The rescale (R142, R143) -/

/-- The division of the fractions rounds the exact product down. -/
theorem floor_sampleValue_mul (v : Sample) (scale : Nat) : ⌊sampleValue v * (scale : ℚ)⌋₊ = rescaleRaw scale v := by
  rw [sampleValue, div_mul_eq_mul_div, ← Nat.cast_mul, Nat.floor_div_eq_div, rescaleRaw]

theorem rescaleOf_toNat (scale : Nat) (v : Sample) : (rescaleOf scale v).toNat = rescaleRaw scale v % 128 :=
  BitVec.toNat_ofNat _ _

/-- A sample is at most 1. -/
theorem rescaleRaw_le (scale : Nat) (v : Sample) : rescaleRaw scale v ≤ scale :=
  Nat.div_le_of_le_mul (Nat.mul_le_mul_right scale v.le_one)

theorem rescaleRaw_lt {scale : Nat} {v : Sample} (hv : sampleValue v < 1) (hscale : 0 < scale) :
    rescaleRaw scale v < scale :=
  Nat.div_lt_of_lt_mul (Nat.mul_lt_mul_of_pos_right ((sampleValue_lt_one_iff v).1 hv) hscale)

theorem rescaleRaw_of_one {v : Sample} (hv : sampleValue v = 1) (scale : Nat) : rescaleRaw scale v = scale := by
  rw [rescaleRaw, (sampleValue_eq_one_iff v).1 hv, Nat.mul_div_cancel_left scale v.den_pos]

/-- In seven bits the mask changes nothing. -/
theorem rescaleOf_eq_floor {scale : Nat} {v : Sample} (h : rescaleRaw scale v < 128) :
    (rescaleOf scale v).toNat = ⌊sampleValue v * (scale : ℚ)⌋₊ := by
  rw [rescaleOf_toNat, Nat.mod_eq_of_lt h, floor_sampleValue_mul]

/-- Settles O16: the exact product rounded down is at most the scale (`rescaleRaw_le`), and less where the sample is below full
scale (`rescaleRaw_lt`), so that only a full-scale sample under 128 needs an eighth bit. -/
theorem rescaleFloorsAndMasks : Obligations.RescaleFloorsAndMasks := by
  intro v s
  refine ⟨rfl, fun scale => ?_, ?_, fun hv => ?_, fun hv => ?_⟩
  · rw [floor_sampleValue_mul]
    exact ⟨rescaleOf_toNat scale v, rescaleRaw_le scale v⟩
  · exact_mod_cast rescaleOf_eq_floor (Nat.lt_succ_of_le (rescaleRaw_le 127 v))
  · exact_mod_cast rescaleOf_eq_floor (rescaleRaw_lt (scale := 128) hv (by decide))
  · rw [rescaleOf, rescaleRaw_of_one hv]
    rfl

/-! ## The report (R140, R144, R145) -/

theorem packByte0_toNat (index : Fin 8) : (BitVec.ofNat 8 index.val).toNat = index.val := by
  rw [BitVec.toNat_ofNat]; omega

/-- The third byte is the sum of the two (R144). -/
theorem signalReportBytes_eq (P : Profile) (index : Fin 8) (mag : BitVec 7) (freq : Bool) :
    signalReportBytes P index mag freq =
      if P.signalReportCk then
        [BitVec.ofNat 8 index.val, packByte1 mag freq, BitVec.ofNat 8 index.val + packByte1 mag freq]
      else [BitVec.ofNat 8 index.val, packByte1 mag freq] := by
  simp [signalReportBytes, withChecksum, packReport, checksum_eq_sum]

/-- The report of what `SELECT` has found (R140). -/
def selectReport (freq : Bool) (s : State) : List Byte :=
  signalReportBytes s.profile (afterSelect s).scn.idxmax (afterSelect s).scn.mag freq

theorem select_eq (freq : Bool) (s : State) : select freq s = .ok (selectReport freq s) (afterSelect s) := rfl

theorem exec_select (freq : Bool) (s : State) :
    exec (.select freq) s = .next ((afterSelect s).setRet (.bytes (selectReport freq s))) := rfl

theorem exec_pack (freq : Bool) (s : State) :
    exec (.pack freq) s = .next (s.setRet (.bytes (packReport s.scn.idxmax s.scn.mag freq))) := rfl

/-- Settles O17: both reports have the bytes of `packReport`, whose values are `packByte0_toNat` and `packByte1_toNat`. -/
theorem packAndSelect : Obligations.PackAndSelect := by
  intro freq s
  refine ⟨_, _, _, _, packByte0_toNat s.scn.idxmax, packByte1_toNat s.scn.mag freq, exec_pack freq s,
    packByte0_toNat (afterSelect s).scn.idxmax, packByte1_toNat (afterSelect s).scn.mag freq, ?_⟩
  rw [exec_select, selectReport, signalReportBytes_eq]
  rfl

/-! ## The signal commands (R146) -/

theorem setFreq_eq (b : Bool) (s : State) : setFreq b s = { s with scn := { s.scn with freq := b } } := rfl

/-- A second selection finds what the first has found. -/
theorem exec_select_afterSelect (freq : Bool) (s : State) :
    exec (.select freq) (afterSelect s) = .next ((afterSelect s).setRet (.bytes (selectReport freq s))) := rfl

/-- A calm scan makes all its calls (R131). -/
theorem scan_of_calm {s : State} (h : s.env.scanCalm) : scan s = .ok () (afterScan s) := by
  rw [(scan_makes s).eq_ok ((scanCalm_iff s).1 h), scanned_done]

theorem scan_of_not_calm {s : State} (h : ¬ s.env.scanCalm) : ∃ c t, scan s = .fatal c t := by
  obtain ⟨c, t, hscan, -⟩ := (scan_makes s).eq_fatal (mt (scanCalm_iff s).2 h)
  exact ⟨c, t, hscan⟩

/-- The scan leaves the flag, so that the selection takes the command's. -/
theorem signal_of_calm {s : State} (freq : Bool) (h : s.env.scanCalm) :
    signal freq s = select freq (afterScan (setFreq freq s)) := by
  rw [signal, scan_of_calm (s := setFreq freq s) h]
  rfl

theorem exec_signal (freq : Bool) (s : State) : exec (.signal freq) s = (signal freq s).answer .bytes := rfl

/-- The two uplink commands are one operation with two flags (46_arbiter.md R226, R227). -/
theorem exec_signalCommand (freq : Bool) (s : State) :
    exec (if freq then .sigHi else .sigLo) s = ((signal freq s).andThen fun bs t => .ok () (loadResp bs t)).close := by
  cases freq <;> rfl

/-- Settles O18: of a calm scan the selection is made (`signal_of_calm`); a `Fatal` of the scan passes through all three. -/
theorem signalIsScanThenSelect : Obligations.SignalIsScanThenSelect := by
  intro s freq
  refine ⟨fun hcalm => ?_, fun hfail i hi => ?_⟩
  · have hsignal := (signal_of_calm freq hcalm).trans (select_eq ..)
    refine ⟨selectReport freq (afterScan (setFreq freq s)), ?_⟩
    rw [← setFreq_eq]
    generalize afterScan (setFreq freq s) = u at hsignal ⊢
    exact ⟨exec_select_afterSelect freq u, by rw [exec_signal, hsignal]; rfl, by rw [exec_signalCommand, hsignal]; rfl⟩
  · obtain ⟨c, t, hscan⟩ := scan_of_not_calm (s := setFreq freq s) hfail
    have hsignal : signal freq s = .fatal c t := by rw [signal, hscan, Eff.andThen_fatal]
    have hexec : exec .scan (setFreq freq s) = .next (takeFatal c t) := by rw [exec_scan, hscan, Eff.close_fatal]
    refine Eq.trans ?_ hexec.symm
    obtain rfl | rfl : i = .signal freq ∨ i = if freq then .sigHi else .sigLo := by simpa using hi
    · rw [exec_signal, hsignal, Eff.answer_fatal]
    · rw [exec_signalCommand, hsignal, Eff.andThen_fatal, Eff.close_fatal]

end Sys2Proof.Machine
end

section
/-! PROOFS. The family 43_framer.md, first part: the phases and the decode called as operations. What each takes from the channel
is said in the second part of 30_encoding.md (`Eff.Takes`); here it is closed or answered (`exec_…`). -/

namespace Sys2Proof.Machine

/-! ## The operations -/

section
variable (s : State)
theorem exec_searchH1 : exec .searchH1 s = (searchH1 s).close := rfl
theorem exec_searchH2 : exec .searchH2 s = (searchH2 s).close := rfl
theorem exec_readCmd : exec .readCmd s = (readCmd s).close := rfl
theorem exec_readAlgo : exec .readAlgo s = (readAlgo s).close := rfl
theorem exec_readLen : exec .readLen s = (readLen s).close := rfl
theorem exec_readPayload : exec .readPayload s = (readPayload s).close := rfl
theorem exec_readCk : exec .readCk s = (readCk s).close := rfl
theorem exec_tagDegraded : exec .tagDegraded s = .next (tagDegraded s) := rfl
theorem exec_result : exec .result s = .next ((result s).setRet (.frame (resultOf s))) := rfl
theorem exec_sentinelBytes (code : SyncCode) :
    exec (.sentinelBytes code) s = .next (s.setRet (.bytes (sentinelBytesOf code))) := rfl
theorem exec_sentinelH1 : exec .sentinelH1 s = .next (abortWithSentinel .h1 s) := rfl
theorem exec_sentinelH2 : exec .sentinelH2 s = .next (abortWithSentinel .h2 s) := rfl
theorem exec_frameDecode : exec .frameDecode s = (frameDecode s).answer .frame := rfl
end

/-- What an operation takes from the channel and leaves in the framer is its outcome. -/
theorem Eff.Takes.close {m : Eff Unit} {s : State} {bs rest : List Byte} {regs : Framer} (h : m.Takes s bs () regs)
    (hd : s.env.delivers bs rest) : m.close = .next (afterReads bs rest { s with frm := regs }) := by
  rw [h rest hd, Eff.close_ok]; rfl

/-! ## The phases -/

/-- Settles O19: the four endings of the two searches. -/
theorem headerSearches : Obligations.HeaderSearches := by
  intro s skipped rest
  rw [exec_searchH1, exec_searchH2]
  exact ⟨fun hlt hskip => (searchH1_found hskip hlt).close, fun hlen hskip => (searchH1_abort hskip hlen).close,
    fun hlt hskip => (searchH2_found hskip hlt).close, fun hlen hskip => (searchH2_abort hskip hlen).close⟩

/-- Without an algorithm byte nothing is read (R158; log 19). -/
theorem readAlgo_absent {s : State} (ha : s.profile.hasAlgo = false) : readAlgo s = .ok () (setFrmPh .len s) :=
  if_neg (by simp [ha])

/-- Settles O20: one byte each, and the algorithm byte that is not there. -/
theorem descriptorBytes : Obligations.DescriptorBytes := by
  intro s b rest hd
  rw [exec_readCmd, exec_readAlgo, exec_readLen]
  refine ⟨(readCmd_takes b).close hd, fun ha => (readAlgo_takes b ha).close hd, fun ha => ?_, (readLen_takes b).close hd⟩
  rw [readAlgo_absent ha]; rfl

/-- Settles O21: the missing bytes are taken, and stored where no other element is. -/
theorem payloadIsReassembled : Obligations.PayloadIsReassembled := by
  intro s bs rest hlen hd
  refine ⟨(readPayload_takes hlen).close hd, fun i h => ?_⟩
  split
  case isTrue hi => exact writeFrom_from bs s.frm.pay s.frm.idx i h hi
  case isFalse hi => exact writeFrom_below bs s.frm.pay s.frm.idx i h (Nat.lt_of_not_le hi)

/-- Settles O22: the compare at once, and the tag on a mismatch. -/
theorem checksumByteAndTag : Obligations.ChecksumByteAndTag :=
  fun s => ⟨fun b _ hd => (readCk_takes b).close hd, exec_tagDegraded s⟩

/-! ## The result and the sentinels -/

section
variable {s : State}

theorem resultOf_abort {code : SyncCode} (h : s.frm.res = some (.syncError code)) : resultOf s = .syncError code := by
  rw [resultOf, h]

theorem resultOf_frame (h : ∀ code, s.frm.res ≠ some (.syncError code)) : resultOf s = .ok (frameOf s) := by
  unfold resultOf
  split
  case h_1 code hres => exact absurd hres (h code)
  case h_2 => rfl

theorem frameOf_payload_getElem? {i : Nat} (h : i < 255) (hi : i < s.frm.len.toNat) :
    (frameOf s).payload[i]? = some s.frm.pay[i] := by
  simp [frameOf, firstBytes, List.getElem?_take_of_lt hi, h]

end

/-- Settles O23: the abort stays the result; otherwise the result is the frame in the registers. -/
theorem resultIsTheFrameOrTheAbort : Obligations.ResultIsTheFrameOrTheAbort := by
  intro s
  rw [exec_result, result]
  refine ⟨fun code h => ?_, fun h => ⟨frameOf s, rfl, rfl, rfl, firstBytes_payload_length .., fun i => frameOf_payload_getElem?,
    rfl, rfl, ?_⟩⟩
  · rw [resultOf_abort h, ← h]; rfl
  · rw [resultOf_frame h]; rfl

/-- Settles O24: the rendering of each code, and the abort with it. -/
theorem sentinels : Obligations.Sentinels :=
  fun s => ⟨exec_sentinelBytes s .h1, exec_sentinelBytes s .h2, exec_sentinelH1 s, exec_sentinelH2 s⟩

/-! ## The decode of a stream -/

/-- Settles O25: the decode takes what `Decodes` says. -/
theorem frameDecodeOfEveryStream : Obligations.FrameDecodeOfEveryStream := by
  intro s bs rest r regs hdec hd
  rw [exec_frameDecode, frameDecode_takes hdec rest hd]
  rfl

/-- A frame with nothing between its headers, behind garbage. -/
theorem decodes_frame_behind {P : Profile} {garbage : List Byte} (old : Framer) (f : WireFrame) (hlt : garbage.length < 32)
    (hno : ∀ b ∈ garbage, b ≠ P.hdr1) (hpay : f.payload.length ≤ 255) :
    Decodes P old (garbage ++ [P.hdr1, P.hdr2] ++ f.inner P ++ [f.ck]) (.ok (f.record P)) (f.regs P old 1) := by
  have h := Decodes.frame (old := old) garbage [] f hlt hno (by simp) (by simp) hpay
  simpa using h

/-- Settles O27: a frame behind garbage is one of the streams, and so is the garbage alone; the tag is in `WireFrame.record`. -/
theorem frameDecodeProperties : Obligations.FrameDecodeProperties := by
  intro s garbage rest f
  refine ⟨fun hlt hno hpay hd => ?_, fun hlen hno hd => ?_⟩
  · have hdec := decodes_frame_behind s.frm f hlt hno hpay
    exact ⟨_, f.record s.profile, frameDecodeOfEveryStream s _ rest _ _ hdec hd, rfl, rfl, rfl,
      fun hck => ⟨if_pos hck, decide_eq_true hck⟩, fun hck => ⟨if_neg hck, decide_eq_false hck⟩⟩
  · exact ⟨_, frameDecodeOfEveryStream s garbage rest _ _ (.noHeader1 garbage hlen hno) hd, rfl, exec_sentinelBytes s .h1⟩

end Sys2Proof.Machine
end

section
/-! PROOFS. The family 43_framer.md, second part: the decode of whatever the camera answers. An operation is followed read by read:
`Eff.Reads` says which bytes it may take, and that the first read that faults ends it; the bytes of a whole decode are a stream
of `Decodes`, so that its result is known (`frameDecode_takes`). -/

namespace Sys2Proof.Machine

/-! ## The channel after some reads -/

section
variable {s : State} {bs cs mid rest : List Byte} {n : Nat} {f : CamReadFault}

theorem delivers_nil (e : Env) : e.delivers [] e.camBuf := ⟨rfl, rfl, by simp⟩

/-- What is delivered after what is delivered. -/
theorem delivers_append_of (h : s.env.delivers bs mid) (g : (afterReads bs mid s).env.delivers cs rest) :
    s.env.delivers (bs ++ cs) rest := by
  obtain ⟨htake, rfl, hnone⟩ := h
  obtain ⟨gtake, rfl, gnone⟩ := g
  refine ⟨?_, by simp [afterReads], fun x hx => ?_⟩
  · rw [List.length_append, takeFilled_add, htake]
    exact congrArg (bs ++ ·) gtake
  · rw [List.length_append, List.take_add, List.mem_append] at hx
    exact hx.elim (hnone x) (gnone x)

/-- A read that does not fault is delivered a byte. -/
theorem delivers_one (h : s.env.camRdFault = none) : ∃ b, s.env.delivers [b] (s.env.camBuf.drop 1) := by
  obtain ⟨b, hb⟩ := List.length_eq_one_iff.1 (takeFilled_length 1 s.env.camBuf)
  refine ⟨b, hb, rfl, ?_⟩
  unfold Env.camRdFault firstFault at h
  split at h
  · next hl => simp [hl]
  · next hl => simpa [hl] using h

theorem firstFault_zero (h : s.env.camRdFault = some f) : s.env.firstFault 0 f := by
  unfold Env.camRdFault firstFault at h
  split at h
  · cases h
  · next hl => exact ⟨by simp, by rw [hl, h]; rfl⟩

/-- Reads that complete come before the first fault. -/
theorem firstFault_add (h : s.env.delivers bs mid) (g : (afterReads bs mid s).env.firstFault n f) :
    s.env.firstFault (bs.length + n) f := by
  obtain ⟨-, -, hnone⟩ := h
  obtain ⟨gnone, gfault⟩ := g
  refine ⟨fun x hx => ?_, by rwa [← List.getElem?_drop]⟩
  rw [List.take_add, List.mem_append] at hx
  exact hx.elim (hnone x) (gnone x)

/-- Reads of one byte each take, one by one, what a longer read takes (20_memory.md R85). -/
theorem map_takeFilled_one (n : Nat) (buf : List Byte) :
    (List.range n).map (fun k => takeFilled 1 (buf.drop k)) = (takeFilled n buf).map fun b => [b] := by
  have hone (l : List Byte) : (takeFilled 1 l).map (fun b => [b]) = [takeFilled 1 l] := by cases l <;> rfl
  induction n with
  | zero => rfl
  | succ n ih => rw [List.range_succ, List.map_append, ih, takeFilled_add, List.map_append, hone]; rfl

theorem afterFaultedReads_afterReads (h : s.env.delivers bs mid) :
    afterFaultedReads 1 n f (afterReads bs mid s) = afterFaultedReads 1 (bs.length + n) f s := by
  obtain ⟨htake, rfl, -⟩ := h
  have hevents : (List.range bs.length).map (fun k => Event.camRead 1 (takeFilled 1 (s.env.camBuf.drop k)))
      = bs.map fun b => Event.camRead 1 [b] := by
    have := congrArg (List.map (Event.camRead 1)) (map_takeFilled_one bs.length s.env.camBuf)
    rwa [htake, List.map_map, List.map_map] at this
  simp only [afterFaultedReads, afterReads, one_mul, List.range_add, List.map_append, hevents, List.map_map,
    List.reverse_append, List.append_assoc, List.cons_append, List.drop_drop, Nat.add_assoc, Function.comp_def]

end

/-! ## Operations followed read by read -/

/-- The effect has made at most `max` reads of one byte: it returns once the channel has delivered bytes for which `q` holds
together with what is returned and the framer's registers, or the first read that faults ends it. -/
def Eff.Reads {α : Type} (s : State) (max : Nat) (q : List Byte → α → Framer → Prop) : Eff α → Prop
  | .ok a t => ∃ bs rest regs,
      s.env.delivers bs rest ∧ bs.length ≤ max ∧ q bs a regs ∧ t = afterReads bs rest (s.setFrm regs)
  | .camFault k t => ∃ n f regs,
      s.env.firstFault n f ∧ n < max ∧ k = f.kind ∧ t = afterFaultedReads 1 n f (s.setFrm regs)
  | .fatal _ _ | .blocked _ | .stop _ => False

section
variable {α β : Type} {s : State} {m : Eff α} {k l max : Nat} {q q' : List Byte → α → Framer → Prop}
  {r : List Byte → β → Framer → Prop}

theorem Eff.Reads.mono (hm : m.Reads s k q) (hkl : k ≤ l) (hq : ∀ bs a regs, q bs a regs → q' bs a regs) :
    m.Reads s l q' := by
  cases m with
  | ok a t =>
    obtain ⟨bs, rest, regs, hd, hle, h, rfl⟩ := hm
    exact ⟨bs, rest, regs, hd, hle.trans hkl, hq _ _ _ h, rfl⟩
  | camFault c t =>
    obtain ⟨n, f, regs, hf, hlt, rfl, rfl⟩ := hm
    exact ⟨n, f, regs, hf, hlt.trans_le hkl, rfl, rfl⟩
  | fatal | blocked | stop => exact hm

/-- The rule for sequences: the second part goes on from the bytes and the registers of the first. -/
theorem Eff.Reads.andThen {f : α → State → Eff β} (hm : m.Reads s k q)
    (hf : ∀ bs a t, t.profile = s.profile → q bs a t.frm → (f a t).Reads t l fun cs => r (bs ++ cs)) (hmax : k + l ≤ max) :
    (m.andThen f).Reads s max r := by
  cases m with
  | ok a t =>
    obtain ⟨bs, mid, regs, hd, hle, h, rfl⟩ := hm
    have hnext := hf bs a (afterReads bs mid (s.setFrm regs)) rfl h
    rw [Eff.andThen_ok]
    cases hg : f a (afterReads bs mid (s.setFrm regs)) with
    | ok b u =>
      rw [hg] at hnext
      obtain ⟨cs, rest, regs', hd', hle', h', rfl⟩ := hnext
      exact ⟨bs ++ cs, rest, regs', delivers_append_of hd hd', by simp; omega, h',
        afterReads_append bs cs mid rest (s.setFrm regs')⟩
    | camFault c u =>
      rw [hg] at hnext
      obtain ⟨n, g, regs', hff, hlt, rfl, rfl⟩ := hnext
      exact ⟨bs.length + n, g, regs', firstFault_add hd hff, by omega, rfl,
        afterFaultedReads_afterReads (s := s.setFrm regs') hd⟩
    | fatal | blocked | stop => rw [hg] at hnext; exact hnext
  | camFault c t =>
    obtain ⟨n, f, regs, hff, hlt, rfl, rfl⟩ := hm
    exact ⟨n, f, regs, hff, by omega, rfl, rfl⟩
  | fatal | blocked | stop => exact hm

/-- An operation that reads nothing. -/
theorem reads_ok {a : α} (regs : Framer) (h : q [] a regs) : (Eff.ok a (s.setFrm regs)).Reads s max q :=
  ⟨[], s.env.camBuf, regs, delivers_nil s.env, Nat.zero_le max, h, rfl⟩

/-- One read, and an update of the framer's registers by the byte. -/
theorem readThen_reads {f : Byte → State → State} (g : Byte → Framer)
    (hf : ∀ b t, t.profile = s.profile → t.frm = s.frm → f b t = t.setFrm (g b)) :
    ((nextByte s).andThen fun b t => .ok () (f b t)).Reads s 1 fun bs _ regs => ∃ b, bs = [b] ∧ regs = g b := by
  cases hfault : s.env.camRdFault with
  | none =>
    obtain ⟨b, hd⟩ := delivers_one hfault
    rw [readThen_takes (g b) (hf b) _ hd]
    exact ⟨[b], _, g b, hd, le_rfl, ⟨b, rfl, rfl⟩, rfl⟩
  | some x =>
    rw [nextByte, camRead_fault hfault]
    refine ⟨0, x, s.frm, firstFault_zero hfault, Nat.one_pos, rfl, ?_⟩
    simp [afterFaultedReads, State.log, State.setEnv, State.setFrm]

end

/-! ## Header searches (43_framer.md R152 to R156) -/

/-- What a search with `n` reads to go may take: the header behind other bytes, or `n` other bytes and the abort. -/
def SearchTakes (hdr : Byte) (n : Nat) (bs : List Byte) (ph : FrmPh) : Prop :=
  (ph ≠ .done ∧ ∃ skipped, bs = skipped ++ [hdr] ∧ skipped.length < n ∧ ∀ b ∈ skipped, b ≠ hdr)
    ∨ (ph = .done ∧ bs.length = n ∧ ∀ b ∈ bs, b ≠ hdr)

theorem SearchTakes.cons {hdr b : Byte} {n : Nat} {bs : List Byte} {ph : FrmPh} (hb : b ≠ hdr) (h : SearchTakes hdr n bs ph) :
    SearchTakes hdr (n + 1) (b :: bs) ph := by
  obtain ⟨hph, skipped, rfl, hlt, hno⟩ | ⟨hph, hlen, hno⟩ := h
  · exact .inl ⟨hph, b :: skipped, rfl, Nat.succ_lt_succ hlt, List.forall_mem_cons.2 ⟨hb, hno⟩⟩
  · exact .inr ⟨hph, congrArg (· + 1) hlen, List.forall_mem_cons.2 ⟨hb, hno⟩⟩

namespace HeaderSearch

variable {S : HeaderSearch}

theorem loop_reads (hfound : ∀ P f, (S.found P f).ph ≠ .done) {n : Nat} {s : State} (hph : s.frm.ph = S.ph) (hpos : 0 < n)
    (hn : s.frm.att + n = Config.syncBudget) :
    (S.loop n s).Reads s n fun bs _ regs => SearchTakes (S.hdr s.profile) n bs regs.ph := by
  induction n generalizing s with
  | zero => cases hpos
  | succ n ih =>
    refine (readThen_reads (fun b => S.take s.profile b s.frm) fun b t hp hf => by rw [hp, hf]).andThen (l := n)
      (fun bs _ t hP hread => ?_) (by omega)
    obtain ⟨b, rfl, hf⟩ := hread
    by_cases hb : b = S.hdr s.profile
    · rw [hb, take_hdr] at hf
      rw [if_neg (by rw [hf]; exact S.found_ph _ _)]
      exact reads_ok t.frm (.inl ⟨by rw [hf]; exact hfound _ _, [], by rw [hb]; rfl, n.succ_pos, by simp⟩)
    rcases n.eq_zero_or_pos with rfl | hpos
    · rw [take_last hb hn] at hf
      rw [if_neg (by rw [hf]; exact S.done_ne)]
      exact reads_ok t.frm (.inr ⟨by rw [hf], rfl, by simpa using hb⟩)
    · rw [take_skip hb (by omega)] at hf
      rw [if_pos (by rw [hf]; exact hph)]
      refine (ih (s := t) (by rw [hf]; exact hph) hpos (by rw [hf]; dsimp only; omega)).mono le_rfl fun bs _ regs h => ?_
      rw [hP] at h
      exact h.cons hb

end HeaderSearch

theorem searchH1_reads (s : State) :
    (searchH1 s).Reads s 32 fun bs _ regs => SearchTakes s.profile.hdr1 32 bs regs.ph := by
  rw [searchH1, searchH1Loop_eq]
  exact HeaderSearch.loop_reads (S := h1Search) (s := frameStart s) (by simp [h1Search]) rfl (by decide) rfl

theorem searchH2_reads (s : State) :
    (searchH2 s).Reads s 32 fun bs _ regs => SearchTakes s.profile.hdr2 32 bs regs.ph := by
  rw [searchH2, searchH2Loop_eq]
  exact HeaderSearch.loop_reads (S := h2Search) (s := s.setFrm { s.frm with ph := .h2, att := 0 }) (by simp [h2Search]) rfl
    (by decide) rfl

/-! ## The frame after its headers (43_framer.md R157 to R162) -/

section
variable {s : State}

theorem readCmd_reads : (readCmd s).Reads s 1 fun bs _ _ => ∃ b, bs = [b] :=
  (readThen_reads (fun b => (takeCmd b s).frm) fun b t hp hf => by simp only [takeCmd, accStep, hp, hf]; rfl).mono le_rfl
    fun _ _ _ ⟨b, hbs, _⟩ => ⟨b, hbs⟩

/-- The algorithm byte, where the profile has one. -/
theorem algoByte_reads : (if s.profile.hasAlgo then readAlgo s else .ok () s).Reads s (if s.profile.hasAlgo then 1 else 0)
    fun bs _ _ => ∃ b, bs = if s.profile.hasAlgo then [b] else [] := by
  cases ha : s.profile.hasAlgo with
  | true =>
    rw [if_pos rfl, if_pos rfl, readAlgo, if_pos ha]
    exact (readThen_reads (fun b => (takeAlgo b s).frm) fun b t _ hf => by simp only [takeAlgo, accStep, hf]; rfl).mono le_rfl
      fun _ _ _ ⟨b, hbs, _⟩ => ⟨b, hbs⟩
  | false => exact reads_ok s.frm ⟨0, rfl⟩

theorem readLen_reads : (readLen s).Reads s 1 fun bs _ regs => bs = [regs.len] ∧ regs.idx = 0 :=
  (readThen_reads (fun b => (takeLen b s).frm) fun b t _ hf => by simp only [takeLen, accStep, hf]; rfl).mono le_rfl
    fun _ _ _ ⟨_, hbs, hregs⟩ => by subst hregs; exact ⟨hbs, rfl⟩

/-- As many bytes as are missing. -/
theorem payloadLoop_reads {n : Nat} (hn : s.frm.idx + n = s.frm.len.toNat) :
    (payloadLoop n s).Reads s n fun bs _ _ => bs.length = n := by
  induction n generalizing s with
  | zero => exact reads_ok s.frm rfl
  | succ n ih =>
    rw [payloadLoop, if_pos (by omega)]
    refine (readThen_reads (fun b => (takePayload b s).frm) fun b t _ hf => by
      simp only [takePayload, accStep, hf]; rfl).andThen (l := n) (fun bs _ t _ hread => ?_) (by omega)
    obtain ⟨b, rfl, hf⟩ := hread
    refine (ih (s := t) (by rw [hf, takePayload_len, takePayload_idx]; omega)).mono le_rfl fun cs _ _ hcs => ?_
    rw [List.length_append, hcs, List.length_singleton, Nat.add_comm]

theorem readPayload_reads (hidx : s.frm.idx = 0) :
    (readPayload s).Reads s 255 fun bs _ _ => bs.length = s.frm.len.toNat := by
  have hlen := s.frm.len.isLt
  refine (payloadLoop_reads (by omega)).andThen (l := 0) (fun bs _ t _ hbs => ?_) (by omega)
  exact reads_ok { t.frm with ph := .ck } (by rw [List.append_nil, hbs, hidx, Nat.sub_zero])

theorem readCk_reads : (readCk s).Reads s 1 fun bs _ _ => ∃ b, bs = [b] :=
  (readThen_reads (fun b => (ckValidate (s.setFrm { s.frm with ckrx := b })).frm) fun b t _ hf => by
    simp only [ckValidate, hf]; rfl).mono le_rfl fun _ _ _ ⟨b, hbs, _⟩ => ⟨b, hbs⟩

/-- After its headers a frame has at most 259 bytes, 258 without the algorithm byte (30_encoding.md R109). -/
theorem readFrame_reads : (readFrame s).Reads s (if s.profile.hasAlgo then 259 else 258) fun bs _ _ =>
    ∃ f : WireFrame, f.payload.length ≤ 255 ∧ bs = f.inner s.profile ++ [f.ck] := by
  refine readCmd_reads.andThen (l := (if s.profile.hasAlgo then 258 else 257)) (fun cmd _ t htP hcmd => ?_) (by split <;> omega)
  obtain ⟨command, rfl⟩ := hcmd
  refine algoByte_reads.andThen (l := 257) (fun alg _ u huP halg => ?_) (by rw [htP]; split <;> omega)
  obtain ⟨algorithm, rfl⟩ := halg
  refine readLen_reads.andThen (l := 256) (fun len _ v hvP hlen => ?_) (by omega)
  obtain ⟨rfl, hidx⟩ := hlen
  refine (readPayload_reads hidx).andThen (l := 1) (fun payload _ w hwP hpay => ?_) (by omega)
  refine readCk_reads.andThen (l := 0) (fun ck _ x hxP hck => ?_) (by omega)
  obtain ⟨ck, rfl⟩ := hck
  have hlt := v.frm.len.isLt
  refine reads_ok { (tagDegraded x).frm with res := some (resultOf (tagDegraded x)), ph := .idle }
    ⟨⟨command, algorithm, payload, ck⟩, by dsimp only; omega, ?_⟩
  rw [WireFrame.inner_append, htP]
  simp [hpay]

end

/-! ## The whole decode (43_framer.md R164, R166) -/

/-- A decode takes one of the streams of `Decodes`, of at most 323 bytes (322), unless a read faults. -/
theorem frameDecode_reads (s : State) : (frameDecode s).Reads s (if s.profile.hasAlgo then 323 else 322) fun bs _ _ =>
    ∃ r regs, Decodes s.profile s.frm bs r regs := by
  refine (searchH1_reads s).andThen (l := if s.profile.hasAlgo then 291 else 290) (fun bs _ t htP hsearch => ?_)
    (by split <;> omega)
  obtain ⟨hph, pre, rfl, hpre, hno1⟩ | ⟨hph, hlen, hno⟩ := hsearch
  case inr =>
    rw [if_pos hph]
    refine reads_ok (result t).frm ?_
    rw [List.append_nil]
    exact ⟨_, _, .noHeader1 bs hlen hno⟩
  rw [if_neg hph]
  refine (searchH2_reads t).andThen (l := if s.profile.hasAlgo then 259 else 258) (fun cs _ u huP hsearch => ?_)
    (by split <;> omega)
  rw [htP] at hsearch huP
  obtain ⟨hph, gap, rfl, hgap, hno2⟩ | ⟨hph, hlen, hno2⟩ := hsearch
  case inr =>
    rw [if_pos hph]
    refine reads_ok (result u).frm ?_
    rw [List.append_nil]
    exact ⟨_, _, .noHeader2 pre cs hpre hno1 hlen hno2⟩
  rw [if_neg hph, ← huP]
  rw [← huP] at hno1 hno2
  refine readFrame_reads.mono le_rfl fun ds _ _ ⟨f, hpay, hds⟩ =>
    ⟨.ok (f.record u.profile), f.regs u.profile s.frm (gap.length + 1), ?_⟩
  have hdec := Decodes.frame (old := s.frm) pre gap f hpre hno1 hgap hno2 hpay
  simpa [hds] using hdec

/-- Settles O26: a decode follows the camera's answers up to the first that faults (`frameDecode_reads`). -/
theorem frameDecodeAlwaysEnds : Obligations.FrameDecodeAlwaysEnds := by
  intro s
  have hreads := frameDecode_reads s
  cases hm : frameDecode s with
  | ok r t =>
    rw [hm] at hreads
    obtain ⟨bs, rest, -, hd, hle, ⟨r', regs, hdec⟩, -⟩ := hreads
    exact .inl ⟨bs, rest, r', regs, hdec, hd, hle, frameDecodeOfEveryStream s bs rest r' regs hdec hd⟩
  | camFault k t =>
    rw [hm] at hreads
    obtain ⟨n, f, regs, hf, hlt, rfl, rfl⟩ := hreads
    refine .inr ⟨n, f, regs, hf, hlt, ?_⟩
    rw [exec_frameDecode, hm, Eff.answer_camFault]; rfl
  | fatal | blocked | stop => rw [hm] at hreads; exact hreads.elim

end Sys2Proof.Machine
end

section
/-! PROOFS. The family 44_flusher.md, first part: a flush of whatever the camera answers. The answers are followed chunk by chunk
to where a flush ends on them (`flushes_or_faults`); on chunks without a fault the result is known (`flush_of_flushes`), and
`flush_of_faultsAfter` says what the first read that faults leaves. -/

namespace Sys2Proof.Machine

theorem exec_flush (s : State) : exec .flush s = (flush s).answer .flush := rfl

/-- Settles O29: the flush reads the chunks that `Flushes` gives it. -/
theorem flushReadsToAnEmptyChunk : Obligations.FlushReadsToAnEmptyChunk := by
  intro s cs last rest r h hd
  rw [exec_flush, flush_of_flushes h hd]; rfl

/-! ## The chunks the channel answers -/

section
variable {s : State} {c : Vector Byte 4} {cs : List (Vector Byte 4)} {rest : List Byte} {f : CamReadFault}

theorem deliversChunks_nil (s : State) : s.env.deliversChunks [] s.env.camBuf := ⟨rfl, rfl, by simp⟩

/-- The converse of `deliversChunks_cons`. -/
theorem deliversChunks_cons_of (htake : takeFilled 4 s.env.camBuf = c.toList) (hfault : s.env.camRdFault = none)
    (hd : (chunkStored c s).env.deliversChunks cs rest) : s.env.deliversChunks (c :: cs) rest := by
  obtain ⟨hcs, hdrop, hnone⟩ := hd
  obtain ⟨_, -, -, hfirst⟩ := delivers_one hfault
  rw [Env.deliversChunks, List.length_cons, Nat.mul_succ, Nat.add_comm (4 * _), takeFilled_add, htake,
    ← List.drop_drop, Nat.add_comm _ 1, List.take_add]
  exact ⟨congrArg (c.toList ++ ·) hcs, hdrop, fun x hx => (List.mem_append.1 hx).elim (hfirst x) (hnone x)⟩

theorem exists_takeFilled_eq_toList (n : Nat) (buf : List Byte) : ∃ c : Vector Byte n, takeFilled n buf = c.toList :=
  ⟨⟨(takeFilled n buf).toArray, by simp⟩, rfl⟩

/-- Each chunk stands in the buffer behind those before it. -/
theorem deliversChunks_getElem (hd : s.env.deliversChunks cs rest) {k : Nat} (hk : k < cs.length) :
    takeFilled 4 (s.env.camBuf.drop (4 * k)) = cs[k].toList := by
  induction cs generalizing s k with
  | nil => cases hk
  | cons c cs ih =>
    obtain ⟨htake, -, hd'⟩ := deliversChunks_cons hd
    cases k with
    | zero => exact htake
    | succ k =>
      rw [Nat.mul_succ, Nat.add_comm, ← List.drop_drop]
      exact ih hd' (Nat.lt_of_succ_lt_succ hk)

/-- The next reads of four bytes answer `cs`, without a fault, and the one after them faults with `f`. -/
def FaultsAfter (s : State) (cs : List (Vector Byte 4)) (f : CamReadFault) : Prop :=
  (∃ rest, s.env.deliversChunks cs rest) ∧ s.env.camRd[cs.length]? = some (some f)

theorem FaultsAfter.firstFault (h : FaultsAfter s cs f) : s.env.firstFault cs.length f := by
  obtain ⟨⟨_, -, -, hnone⟩, hfault⟩ := h
  exact ⟨hnone, hfault⟩

theorem faultsAfter_nil_iff : FaultsAfter s [] f ↔ s.env.camRdFault = some f := by
  constructor
  · rintro ⟨-, hfault⟩
    obtain ⟨later, hl⟩ := List.head?_eq_some_iff.1 (List.head?_eq_getElem?.trans hfault)
    rw [Env.camRdFault, hl]; rfl
  · exact fun h => ⟨⟨_, deliversChunks_nil s⟩, (firstFault_zero h).2⟩

theorem faultsAfter_cons_iff : FaultsAfter s (c :: cs) f ↔
    takeFilled 4 s.env.camBuf = c.toList ∧ s.env.camRdFault = none ∧ FaultsAfter (chunkStored c s) cs f := by
  have hnext : (chunkStored c s).env.camRd[cs.length]? = s.env.camRd[(c :: cs).length]? := by
    rw [List.length_cons, Nat.add_comm]; exact List.getElem?_drop
  constructor
  · rintro ⟨⟨rest, hd⟩, hfault⟩
    obtain ⟨htake, hnone, hd'⟩ := deliversChunks_cons hd
    exact ⟨htake, hnone, ⟨rest, hd'⟩, hnext.trans hfault⟩
  · rintro ⟨htake, hnone, ⟨rest, hd⟩, hfault⟩
    exact ⟨⟨rest, deliversChunks_cons_of htake hnone hd⟩, hnext.symm.trans hfault⟩

/-! ## Where a flush ends (44_flusher.md R183, R184) -/

/-- A chunk that is not empty before those of a flush is one chunk more for a bound one higher. -/
theorem flushes_cons {max : Nat} {r : FlushResult} (hc : c ≠ emptyChunk) (h : Flushes max cs r) :
    ∃ r', Flushes (max + 1) (c :: cs) r' := by
  cases h with
  | drained cs hn hlt => exact ⟨_, .drained (c :: cs) (List.forall_mem_cons.2 ⟨hc, hn⟩) (Nat.succ_lt_succ hlt)⟩
  | exhausted _ hn hlen => exact ⟨_, .exhausted (c :: cs) (List.forall_mem_cons.2 ⟨hc, hn⟩) (congrArg (· + 1) hlen)⟩

theorem Flushes.length_le {max : Nat} {r : FlushResult} (h : Flushes max cs r) : cs.length ≤ max := by
  cases h with
  | drained cs hn hlt => rw [List.length_append]; exact hlt
  | exhausted _ hn hlen => exact hlen.le

theorem Flushes.ne_nil {max : Nat} {r : FlushResult} (h : Flushes max cs r) (hpos : 0 < max) : cs ≠ [] := by
  cases h with
  | drained cs hn hlt => simp
  | exhausted _ hn hlen => exact List.ne_nil_of_length_pos (hlen ▸ hpos)

/-- Whatever the camera answers, a flush ends on it, or a read before the bound faults. -/
theorem flushes_or_faults (max : Nat) (s : State) :
    (∃ cs rest r, Flushes max cs r ∧ s.env.deliversChunks cs rest)
      ∨ ∃ cs f, cs.length < max ∧ (∀ c ∈ cs, c ≠ emptyChunk) ∧ FaultsAfter s cs f := by
  induction max generalizing s with
  | zero => exact .inl ⟨[], _, _, .exhausted [] nofun rfl, deliversChunks_nil s⟩
  | succ max ih =>
    cases hfault : s.env.camRdFault with
    | some f => exact .inr ⟨[], f, max.succ_pos, nofun, faultsAfter_nil_iff.2 hfault⟩
    | none =>
      obtain ⟨c, htake⟩ := exists_takeFilled_eq_toList 4 s.env.camBuf
      by_cases hc : c = emptyChunk
      · subst hc
        exact .inl ⟨_, _, _, .drained [] nofun max.succ_pos, deliversChunks_cons_of htake hfault (deliversChunks_nil _)⟩
      obtain ⟨cs, rest, r, hfl, hd⟩ | ⟨cs, f, hlt, hn, hf⟩ := ih (chunkStored c s)
      · obtain ⟨r', hfl'⟩ := flushes_cons hc hfl
        exact .inl ⟨_, _, _, hfl', deliversChunks_cons_of htake hfault hd⟩
      · exact .inr ⟨c :: cs, f, Nat.succ_lt_succ hlt, List.forall_mem_cons.2 ⟨hc, hn⟩,
          faultsAfter_cons_iff.2 ⟨htake, hfault, hf⟩⟩

/-! ## The first read that faults -/

theorem afterFaultedReads_chunkStored (n : Nat) (flu : Flusher) (htake : takeFilled 4 s.env.camBuf = c.toList) :
    afterFaultedReads 4 n f ((chunkStored c s).setFlu flu) = afterFaultedReads 4 (n + 1) f (s.setFlu flu) := by
  simp [afterFaultedReads, chunkStored, afterChunks, State.setFlu, List.range_succ_eq_map, htake, Function.comp_def, Nat.mul_succ,
    Nat.add_comm, Nat.add_left_comm]

/-- The loop has stored and counted the chunks before the fault. -/
theorem flushLoop_of_faultsAfter {k : Nat} (hn : ∀ c ∈ cs, c ≠ emptyChunk) (hlt : cs.length < k)
    (hk : s.flu.n + k = s.profile.flushMax) (h : FaultsAfter s cs f) :
    flushLoop k s = .camFault f.kind
      (afterFaultedReads 4 cs.length f (s.setFlu ⟨cs.getLastD s.flu.chunk, s.flu.n + cs.length⟩)) := by
  induction cs generalizing s k with
  | nil =>
    obtain _ | k := k
    · cases hlt
    rw [flushLoop, stepFlush, if_pos (show s.flu.n < _ by omega), camRead_fault (faultsAfter_nil_iff.1 h)]
    simp [afterFaultedReads, State.log, State.setEnv, State.setFlu]
  | cons c cs ih =>
    obtain _ | k := k
    · cases hlt
    rw [List.forall_mem_cons] at hn
    rw [List.length_cons] at hlt
    obtain ⟨rest, hd⟩ := h.1
    obtain ⟨htake, -, hnext⟩ := faultsAfter_cons_iff.1 h
    have hflu : (chunkStored c s).flu = ⟨c, s.flu.n + 1⟩ := rfl
    rw [flushLoop_succ hk hd, if_neg hn.1, ih hn.2 (by omega) (by rw [hflu, Nat.add_assoc, Nat.add_comm 1]; exact hk) hnext,
      afterFaultedReads_chunkStored _ _ htake, hflu, List.length_cons, List.getLastD_cons, Nat.add_assoc, Nat.add_comm 1]

theorem flush_of_faultsAfter (hn : ∀ c ∈ cs, c ≠ emptyChunk) (hlt : cs.length < s.profile.flushMax)
    (h : FaultsAfter s cs f) : flush s = .camFault f.kind
      (afterFaultedReads 4 cs.length f (s.setFlu ⟨cs.getLastD s.flu.chunk, cs.length⟩)) := by
  rw [flush, flushLoop_of_faultsAfter (s := flushStart s) hn hlt (Nat.zero_add _) h]
  simp [flushStart]

end

/-- Settles O30: a flush ends on the camera's answers, or at the first that faults (`flushes_or_faults`). -/
theorem flushAlwaysEnds : Obligations.FlushAlwaysEnds := by
  intro s hmax
  obtain ⟨cs, rest, r, hfl, hd⟩ | ⟨cs, f, hlt, hn, hf⟩ := flushes_or_faults s.profile.flushMax s
  · obtain ⟨init, last, rfl⟩ := (List.eq_nil_or_concat' cs).resolve_left (hfl.ne_nil hmax)
    have hle := hfl.length_le
    rw [List.length_append] at hle
    exact .inl ⟨init, last, rest, r, hfl, hd, hle, flushReadsToAnEmptyChunk s init last rest r hfl hd⟩
  · obtain ⟨rest, hd⟩ := hf.1
    refine .inr ⟨cs.length, f, cs.getLastD s.flu.chunk, hf.firstFault, hlt, fun k hk => ?_, fun h => ?_, fun k hk => ?_, ?_⟩
    · rw [deliversChunks_getElem hd hk]
      exact fun h => hn _ (List.getElem_mem hk) (Vector.toList_inj.1 h)
    · rw [List.eq_nil_of_length_eq_zero h]; rfl
    · rw [deliversChunks_getElem hd (by omega), List.getLastD_eq_getLast?, List.getLast?_eq_getElem?]
      simp [hk]
    · rw [exec_flush, flush_of_faultsAfter hn hlt hf, Eff.answer_camFault]; rfl

end Sys2Proof.Machine
end

section
/-! PROOFS. The family 44_flusher.md, second part: the rows of a chunk, and the range of `FL_N`. An operation leaves `FL_N` in its
range however it ends (`Eff.Ends flushCountOk`): the rule for sequences gives it from the primitives, which leave the flusher's
registers alone, and from the flush (`flush_count`). -/

namespace Sys2Proof.Machine

/-! ## A chunk that has come (44_flusher.md R181 to R183) -/

section
variable {s : State}

theorem exec_chunkEmpty (s : State) : exec .chunkEmpty s = .next (chunkCame emptyChunk.toList s) := rfl
theorem exec_chunkData (a b c d : Byte) (s : State) :
    exec (.chunkData a b c d) s = .next (chunkCame #v[a, b, c, d].toList s) := rfl

theorem chunkCame_empty (h : s.flu.n < s.profile.flushMax) : chunkCame emptyChunk.toList s
    = (s.setFlu ⟨emptyChunk, s.flu.n + 1⟩).setRet (.flush (.drained (s.flu.n + 1))) := by
  rw [chunkCame, if_pos h, chunkVerdict, if_pos ((chunkIsEmpty_iff emptyChunk).2 rfl), storeChunk, writeFrom_full]; rfl

theorem chunkCame_data {c : Vector Byte 4} (hc : c ≠ emptyChunk) (h : s.flu.n < s.profile.flushMax) :
    chunkCame c.toList s = (s.setFlu ⟨c, s.flu.n + 1⟩).setRet
      (if s.flu.n + 1 < s.profile.flushMax then .unit else .flush .exhausted) := by
  rw [chunkCame, if_pos h, chunkVerdict, if_neg (mt (chunkIsEmpty_iff c).1 hc), storeChunk, writeFrom_full]
  by_cases hmore : s.flu.n + 1 < s.profile.flushMax <;> simp [hmore]

theorem chunkCame_at_bound (c : List Byte) (h : s.profile.flushMax ≤ s.flu.n) :
    chunkCame c s = s.setRet (.flush .exhausted) := if_neg (Nat.not_lt.2 h)

theorem ne_emptyChunk_of_wellFormed {P : Profile} {a b c d : Byte} (h : (Instr.chunkData a b c d).wellFormed P = true) :
    #v[a, b, c, d] ≠ emptyChunk := by
  intro he
  obtain ⟨rfl, rfl, rfl, rfl⟩ : a = 0xFF ∧ b = 0xFF ∧ c = 0xFF ∧ d = 0xFF := by simpa [emptyChunk] using he
  simp [Instr.wellFormed, Config.flushEmpty] at h

end

/-! ## The range of `FL_N` over sequences (10_state.md R33) -/

/-- The rule for sequences, for what every part keeps. -/
theorem Eff.Ends.seq {α β : Type} {p : State → Prop} {m : Eff α} {f : α → State → Eff β} (hm : m.Ends p)
    (hf : ∀ a t, p t → (f a t).Ends p) : (m.andThen f).Ends p := hm.andThen (fun _ h => h) hf

/-- Whatever state the outcome leaves has `FL_N` in its range. -/
def LeavesCountOk (o : Host.Outcome State Fault Refusal) : Prop := ∀ t, o = .next t → flushCountOk t

theorem leavesCountOk_next {s : State} (h : flushCountOk s) : LeavesCountOk (.next s) := by
  rintro _ ⟨⟩; exact h

theorem leavesCountOk_refused (r : Refusal) : LeavesCountOk (.refused r) := by rintro _ ⟨⟩

theorem leavesCountOk_ite {p : Prop} [Decidable p] {o o' : Host.Outcome State Fault Refusal} (ho : LeavesCountOk o)
    (ho' : LeavesCountOk o') : LeavesCountOk (if p then o else o') := by
  split
  · exact ho
  · exact ho'

section
variable {s : State} (h : flushCountOk s)
include h

theorem restoreDir_count : flushCountOk (restoreDir s) := by
  unfold restoreDir; split <;> exact h

theorem takeFatal_count (c : FatalCause) : flushCountOk (takeFatal c s) := by
  unfold takeFatal
  cases s.arb.mode with
  | transmit => exact restoreDir_count h
  | receive => exact h

end

/-- An exception that is taken leaves the flusher's registers too. -/
theorem Eff.Ends.close_count {m : Eff Unit} (h : m.Ends flushCountOk) : LeavesCountOk m.close := by
  cases m with
  | ok _ t => exact leavesCountOk_next h
  | camFault k t => exact leavesCountOk_next (s := (takeAbsent t).setRet _) h
  | fatal c t => exact leavesCountOk_next (takeFatal_count h c)
  | blocked t => exact leavesCountOk_next h
  | stop f => intro t ht; cases ht

theorem Eff.Ends.answer_count {α : Type} {m : Eff α} (h : m.Ends flushCountOk) (f : α → Ret) :
    LeavesCountOk (m.answer f) := by
  refine Eff.Ends.close_count (h.seq fun _ _ ht => ?_)
  exact ht

section
variable {s : State} (h : flushCountOk s)
include h

/-! ## The primitives -/

theorem upRead_count : (upRead s).Ends flushCountOk := by
  cases hm : s.arb.mode with
  | transmit => rw [upRead_transmit hm]; trivial
  | receive => rcases upRead_cases hm with ⟨_, _, -, hr⟩ | ⟨-, hr⟩ | ⟨_, -, hr⟩ <;> rw [hr] <;> exact h

theorem upWrite_count (bs : List Byte) : (upWrite bs s).Ends flushCountOk := by
  cases hm : s.arb.mode with
  | receive => rw [upWrite_receive hm]; trivial
  | transmit =>
    cases hf : s.env.upWrFails
    · rw [upWrite_ok hm hf]; exact h
    · rw [upWrite_fatal hm hf]; exact h

theorem camRead_count (n : Nat) : (camRead n s).Ends flushCountOk := by
  rcases camRead_cases n s with hr | ⟨f, hr⟩ <;> rw [hr] <;> exact h

theorem camWrite_count (bs : List Byte) : (camWrite bs s).Ends flushCountOk := by
  rcases camWrite_cases bs s with hr | ⟨k, hr⟩ <;> rw [hr] <;> exact h

theorem pinSet_count (pin : Pin) (l : Bool) : (pinSet pin l s).Ends flushCountOk := by
  rcases pinSet_cases pin l s with hr | hr <;> rw [hr] <;> exact h

theorem sleep_count (d : Nat) : (sleep d s).Ends flushCountOk := by
  rcases sleep_cases d s with hr | hr <;> rw [hr] <;> exact h

theorem analogRead_count : (analogRead s).Ends flushCountOk := by
  rcases analogRead_cases s with ⟨v, adc, n, hr⟩ | ⟨adc, hr⟩ <;> rw [hr] <;> exact h

/-! ## The scanner -/

/-- The calls of a scan, whichever they are, leave the flusher's registers. -/
theorem Eff.Makes.count {m : Eff Unit} {es : List Event} {r : ScanRegs} (hm : m.Makes s es r) : m.Ends flushCountOk := by
  cases m with
  | ok _ t => obtain ⟨-, rfl⟩ := hm; exact h
  | fatal c t => obtain ⟨_, _, _, -, -, -, -, rfl⟩ := hm; exact h
  | camFault | blocked | stop => exact hm.elim

theorem pulse_count {pin : Pin} (hpin : pin ≠ .dir) (l : Bool) (move : Nat → Nat) :
    (pulse pin l move s).Ends flushCountOk := by
  have hmakes := pulse_makes (r := s.scanRegs) (callsPass_nil s) hpin l move
  rw [scanned_nil] at hmakes
  exact hmakes.count h

theorem settle_count : (settle s).Ends flushCountOk :=
  (sleep_count (s := setScnPh .settleClk s) h _).seq fun _ t ht => sleep_count (s := setScnPh .settleAdc t) ht _

theorem sample_count : (sample s).Ends flushCountOk := (analogRead_count h).seq fun _ _ ht => ht

theorem scan_count : (scan s).Ends flushCountOk := (scan_makes s).count h

theorem signal_count (freq : Bool) : (signal freq s).Ends flushCountOk :=
  (scan_count (s := setFreq freq s) h).seq fun _ _ ht => ht

/-! ## The framer -/

theorem framerOnly.count {t : State} (ht : framerOnly s t) : flushCountOk t := by
  obtain ⟨hP, -, -, -, hflu, -⟩ := (framerOnly_iff s t).1 ht
  rw [flushCountOk, hP, hflu]
  exact h

theorem Eff.InCamera.count {α : Type} {m : Eff α} (hm : m.InCamera (framerOnly s)) : m.Ends flushCountOk :=
  hm.ends.mono fun _ ht => ht.count h

/-! ## The camera protocol -/

theorem frameDecode_count : (frameDecode s).Ends flushCountOk := (frameDecode_inCamera s).count h

/-- A request, the decode of what comes back, and what is made of it. -/
theorem exchange_count {α : Type} (bs : List Byte) (ph : CcpPh) {f : FrameResult → State → Eff α}
    (hf : ∀ r t, flushCountOk t → (f r t).Ends flushCountOk) :
    ((camWrite bs s).andThen fun _ t => (frameDecode (setCcpPh ph t)).andThen f).Ends flushCountOk :=
  (camWrite_count h bs).seq fun _ t ht => (frameDecode_count (s := setCcpPh ph t) ht).seq hf

theorem knock_count : (knock s).Ends flushCountOk :=
  exchange_count (s := setCcpPh .knockTx s) h _ _ fun _ _ ht => ht

theorem algsel_count : (algsel s).Ends flushCountOk := by
  unfold algsel; split
  · exact exchange_count (s := setCcpPh .algTx s) h _ _ fun _ _ ht => ht
  · exact h

theorem handshake_count : (handshake s).Ends flushCountOk :=
  (knock_count h).seq fun known t ht => by
    cases known with
    | true => exact (algsel_count ht).seq fun _ _ hu => hu
    | false => exact ht

theorem extract_count (f : Frame) (off : Offsets) : (extract f off s).Ends flushCountOk := by
  unfold extract; split
  · exact h
  · trivial

omit h in
theorem flushNoBlock_count (s : State) : (flushNoBlock s).Ends flushCountOk := (flush_count _).seq fun _ _ ht => ht

theorem blockOrFlush_count (f : Frame) (off : Offsets) : (blockOrFlush f off s).Ends flushCountOk := by
  unfold blockOrFlush; split
  · exact (extract_count h f off).seq fun _ _ ht => ht
  · exact flushNoBlock_count s

theorem wrappedBranch_count : (wrappedBranch s).Ends flushCountOk :=
  (frameDecode_count (s := setCcpPh .nestRx s) h).seq fun r t ht => by
    cases r with
    | ok g => exact blockOrFlush_count ht g _
    | syncError code => exact flushNoBlock_count t

theorem directBranch_count : (directBranch s).Ends flushCountOk := by
  unfold directBranch; split
  · exact blockOrFlush_count h _ _
  · exact flushNoBlock_count s
  · exact blockOrFlush_count h _ _

theorem responseBranch_count (r : FrameResult) : (responseBranch r s).Ends flushCountOk := by
  cases r with
  | syncError code => exact flushNoBlock_count s
  | ok f =>
    unfold responseBranch
    dsimp only
    split
    · exact wrappedBranch_count h
    · exact blockOrFlush_count h f _
    · exact flushNoBlock_count s

theorem requestBlocks_count : (requestBlocks s).Ends flushCountOk :=
  exchange_count (s := setCcpPh .reqTx s) h _ _ fun r _ ht => responseBranch_count ht r

theorem cameraTry_count : (cameraTry s).Ends flushCountOk := by
  refine Eff.Ends.seq ?_ fun _ t ht => ?_
  · split
    · exact h
    · exact handshake_count h
  · split
    · exact requestBlocks_count ht
    · exact ht

omit h in
theorem catchCamFault_count {m : Eff (List Byte)} (hm : m.Ends flushCountOk) : (catchCamFault m).Ends flushCountOk := by
  cases m with
  | ok | camFault | fatal | blocked | stop => exact hm

theorem cameraData_count : (cameraData s).Ends flushCountOk := by
  refine catchCamFault_count ((cameraTry_count (s := s.setCcp { s.ccp with blkValid := false }) h).seq fun _ _ ht => ?_)
  exact ht

/-! ## The arbiter -/

theorem signalCommand_count (freq : Bool) :
    ((signal freq s).andThen fun bs t => .ok () (loadResp bs t)).Ends flushCountOk :=
  (signal_count h freq).seq fun _ _ ht => ht

theorem camData_count : (camData s).Ends flushCountOk := (cameraData_count h).seq fun _ _ ht => ht

theorem dispatch_count : (dispatch s).Ends flushCountOk := by
  unfold dispatch
  cases uplinkCmd s.arb.cmd with
  | sigLo => exact signalCommand_count h false
  | sigHi => exact signalCommand_count h true
  | camData => exact camData_count h
  | unrecognized => exact h

theorem setRx_count : (setRx s).Ends flushCountOk := (pinSet_count h _ _).seq fun _ _ ht => ht
theorem setTx_count : (setTx s).Ends flushCountOk := (pinSet_count h _ _).seq fun _ _ ht => ht
theorem waitCmd_count : (waitCmd s).Ends flushCountOk := (upRead_count h).seq fun _ _ ht => ht

theorem writeResp_count : (writeResp s).Ends flushCountOk := by
  unfold writeResp; split
  · exact upWrite_count h _
  · exact h

theorem arbCycle_count : (arbCycle s).Ends flushCountOk :=
  (setRx_count (s := setArbPh .setRx s) h).seq fun _ t ht =>
    (waitCmd_count (s := setArbPh .waitCmd t) ht).seq fun _ t ht =>
      (setTx_count (s := setArbPh .setTx t) ht).seq fun _ t ht =>
        (dispatch_count (s := setArbPh .dispatch t) ht).seq fun _ t ht =>
          (writeResp_count (s := setArbPh .write t) ht).seq fun _ t ht =>
            (sleep_count (s := setArbPh .settle t) ht _).seq fun _ _ ht => ht

/-! ## Every operation -/

theorem chunkCame_count (c : List Byte) : flushCountOk (chunkCame c s) := by
  unfold chunkCame; split
  · next hlt => exact Nat.succ_le_of_lt hlt
  · exact h

theorem handshakeStepOk_count : flushCountOk (handshakeStepOk s) := by
  unfold handshakeStepOk; split <;> exact h

/-- Whichever instruction runs, `FL_N` stays in its range (R33). -/
theorem exec_count (i : Instr) : LeavesCountOk (exec i s) := by
  cases i with
  -- register updates without a call
  | respNotOk | sentinelH1 | sentinelH2 | signalReport | blockReport | checksum | accStep | ckValidate | argmax | rescale
  | pack | tagDegraded | sentinelBytes | blockReportBuild => exact leavesCountOk_next h
  | unrecognized | select | result | diag => exact leavesCountOk_next h
  | respOk => exact leavesCountOk_next (handshakeStepOk_count h)
  | chunkEmpty | chunkData => exact leavesCountOk_next (chunkCame_count h _)
  | fatalStop c => exact leavesCountOk_next (takeFatal_count h c)
  -- the camera path
  | flush => exact (flush_count s).answer_count _
  | respUnknown => exact (flushNoBlock_count s).answer_count _
  | respWrapped => exact (wrappedBranch_count h).answer_count _
  | respDirect => exact (directBranch_count h).answer_count _
  | cameraFrame =>
    refine Eff.Ends.answer_count (frameDecode_count ?_) _
    exact h
  | knock => exact (knock_count h).answer_count _
  | algsel => exact (algsel_count h).answer_count _
  | handshake => exact (handshake_count h).close_count
  | requestBlocks => exact (requestBlocks_count h).answer_count _
  | extract f off => exact (extract_count h f off).answer_count _
  | cameraData => exact (cameraData_count h).answer_count _
  | txKnock | txReqblk => exact (camWrite_count h _).close_count
  | txAlgsel => exact leavesCountOk_ite (camWrite_count h _).close_count (leavesCountOk_next h)
  -- the framer
  | frameDecode => exact (frameDecode_count h).answer_count _
  | searchH1 => exact ((searchH1_inCamera s).count h).close_count
  | searchH2 => exact ((searchH2_inCamera s).count h).close_count
  | readCmd | readLen | readCk =>
    refine Eff.Ends.close_count (((nextByte_inCamera s).count h).seq fun _ _ ht => ?_)
    exact ht
  | readAlgo => exact ((readAlgo_inCamera s).count h).close_count
  | readPayload => exact ((readPayload_inCamera s).count h).close_count
  -- the scanner
  | scan => exact (scan_count h).close_count
  | muxResetPulse => rw [exec_muxResetPulse]; exact (pulse_count (pin := .muxReset) h nofun _ _).close_count
  | muxAdvancePulse => rw [exec_muxAdvancePulse]; exact (pulse_count (pin := .muxAdv) h nofun _ _).close_count
  | settle => exact (settle_count h).close_count
  | sample => exact (sample_count h).close_count
  | signal freq => exact (signal_count h freq).answer_count _
  -- the arbiter
  | sigLo => exact (signalCommand_count h false).close_count
  | sigHi => exact (signalCommand_count h true).close_count
  | camData => exact (camData_count h).close_count
  | arbLoop => exact (arbCycle_count h).close_count
  | setRx => exact (setRx_count h).close_count
  | waitCmd => exact (waitCmd_count h).close_count
  | setTx => exact (setTx_count h).close_count
  | dispatch => exact (dispatch_count h).close_count
  | writeResp => exact (writeResp_count h).close_count
  | txSettle => exact (sleep_count h _).close_count
  -- the primitives
  | upRead => exact (upRead_count h).answer_count _
  | upWrite bs => exact leavesCountOk_ite (upWrite_count h bs).close_count (leavesCountOk_refused _)
  | camRead n => exact leavesCountOk_ite ((camRead_count h n).answer_count _) (leavesCountOk_refused _)
  | camWrite bs => exact leavesCountOk_ite (camWrite_count h bs).close_count (leavesCountOk_refused _)
  | pinSet pin l => exact (pinSet_count h pin l).close_count
  | analogRead => exact (analogRead_count h).answer_count _
  | sleep d => exact (sleep_count h d).close_count

end

/-- Settles O31: a chunk below the bound and at it; that no operation takes `FL_N` out of its range is `exec_count`. -/
theorem chunkRows : Obligations.ChunkRows := by
  intro s
  refine ⟨fun hlt => ⟨?_, fun a b c d hw => ?_⟩, fun hle => ⟨?_, fun a b c d => ?_⟩, fun h i t ht => exec_count h i t ht⟩
  · rw [exec_chunkEmpty, chunkCame_empty hlt]; rfl
  · rw [exec_chunkData, chunkCame_data (ne_emptyChunk_of_wellFormed hw) hlt]; rfl
  · rw [exec_chunkEmpty, chunkCame_at_bound _ hle]; rfl
  · rw [exec_chunkData, chunkCame_at_bound _ hle]; rfl

end Sys2Proof.Machine
end

section
/-! PROOFS. The family 45_camera_protocol.md, first part: one exchange with the camera, and what each answer makes of it. An
exchange is a write and a decode (`exchange_takes`); the streams that the decode takes, and what it returns of them, are those of
`Decodes` (`frameDecode_takes`). -/

namespace Sys2Proof.Machine

/-! ## The operations -/

section
variable (s : State)
theorem exec_knock : exec .knock s = (knock s).answer .bool := rfl
theorem exec_algsel : exec .algsel s = (algsel s).answer .bool := rfl
theorem exec_handshake : exec .handshake s = (handshake s).close := rfl
theorem exec_requestBlocks : exec .requestBlocks s = (requestBlocks s).answer .block := rfl
theorem exec_extract (f : Frame) (off : Offsets) : exec (.extract f off) s = (extract f off s).answer fun b => .block (some b) :=
  rfl
theorem exec_blockReportBuild (b : Option Block) :
    exec (.blockReportBuild b) s = .next (s.setRet (.bytes (blockReportBytes s.profile b))) := rfl
theorem exec_cameraData : exec .cameraData s = (cameraData s).answer .bytes := rfl
theorem exec_camData : exec .camData s = (camData s).close := rfl
end

/-- Settles O38: the report is what `blockReportBytes` says of each block. -/
theorem blockReportIsRecomputedLocally : Obligations.BlockReportIsRecomputedLocally :=
  fun b s => ⟨exec_blockReportBuild s (some b), exec_blockReportBuild s none⟩

/-! ## The fields of a block (R201) -/

/-- A block that is there lies in the payload. -/
theorem coveredBy_of_blockAt {payload : List Byte} {off : Offsets} {b : Block} (h : blockAt payload off = some b) :
    off.coveredBy payload.length = true := by
  unfold blockAt at h
  split at h
  · next hx _ hy _ hw _ hh =>
    simp only [Offsets.coveredBy, Bool.and_eq_true, decide_eq_true_eq]
    exact ⟨⟨⟨(List.getElem?_eq_some_iff.1 hx).1, (List.getElem?_eq_some_iff.1 hy).1⟩,
      (List.getElem?_eq_some_iff.1 hw).1⟩, (List.getElem?_eq_some_iff.1 hh).1⟩
  · cases h

section
variable {s : State} {f : Frame} {off : Offsets}

theorem exec_extract_block {b : Block} (h : blockAt f.payload off = some b) : exec (.extract f off) s = .next { s with
    ccp := { s.ccp with blk := b, blkValid := true }, ret := .block (some b) } := by
  rw [exec_extract, extract, h]; rfl

theorem exec_extract_outside (h : off.coveredBy f.payload.length = false) :
    exec (.extract f off) s = .fault .unwrittenRead := by
  cases hb : blockAt f.payload off with
  | none => rw [exec_extract, extract, hb]; rfl
  | some b => rw [coveredBy_of_blockAt hb] at h; cases h

end

/-- Settles O37: `blockAt` has the eight bytes in order, and is there exactly where the payload covers the offsets. -/
theorem extractCopiesTheFields : Obligations.ExtractCopiesTheFields := by
  intro f off s
  refine ⟨fun x0 x1 y0 y1 w0 w1 h0 h1 hx0 hx1 hy0 hy1 hw0 hw1 hh0 hh1 => ?_, fun hwf => ?_, fun hout => ?_⟩
  · exact exec_extract_block (by simp only [blockAt, hx0, hx1, hy0, hy1, hw0, hw1, hh0, hh1])
  · simp only [Instr.wellFormed, Bool.and_eq_true, decide_eq_true_eq] at hwf
    obtain ⟨hlen, hcov⟩ := hwf
    obtain ⟨b, hb⟩ := blockAt_isSome f.payload off (by rw [hlen, hcov])
    exact ⟨b, exec_extract_block hb⟩
  · refine exec_extract_outside ?_
    simp only [Offsets.coveredBy, Bool.and_eq_false_iff, decide_eq_false_iff_not]
    omega

/-! ## An exchange (R192, R194, R197) -/

/-- All eight bits of the command are compared; an abort has none (R191). -/
theorem matchesCode_iff {r : FrameResult} {code : Byte} : matchesCode r code = true ↔ ∃ f, r = .ok f ∧ f.command = code := by
  cases r <;> simp [matchesCode]

/-- The state in which an exchange has its answer: the frame `tx` is written, and the bytes `bs` are decoded in the phase `ph`. -/
def afterExchange (tx bs rest : List Byte) (regs : Framer) (ph : CcpPh) (s : State) : State :=
  afterReads bs rest (afterCamWrite tx { s with frm := regs, ccp := { s.ccp with ph := ph } })

@[simp] theorem afterExchange_profile (tx bs rest : List Byte) (regs : Framer) (ph : CcpPh) (s : State) :
    (afterExchange tx bs rest regs ph s).profile = s.profile := rfl

section
variable {s : State} {bs rest : List Byte} {r : FrameResult} {regs : Framer} (hwr : s.env.camWrFault = none)
  (hdec : Decodes s.profile s.frm bs r regs) (hd : s.env.delivers bs rest)
include hwr hdec hd

theorem exchange_takes {α : Type} (tx : List Byte) (ph ph' : CcpPh) (f : FrameResult → State → Eff α) :
    ((camWrite tx (setCcpPh ph s)).andThen fun _ t => (frameDecode (setCcpPh ph' t)).andThen f)
      = f r (afterExchange tx bs rest regs ph' s) := by
  rw [camWrite_ok (s := setCcpPh ph s) hwr, Eff.andThen_ok]
  generalize ht : setCcpPh ph' (State.log _ _) = t
  have hdec' : Decodes t.profile t.frm bs r regs := by rw [← ht]; exact hdec
  rw [frameDecode_takes hdec' rest (by rw [← ht]; exact hd), Eff.andThen_ok, ← ht]
  rfl

theorem knock_takes : knock s
    = .ok (matchesCode r s.profile.cmdOk) (afterExchange s.profile.txKnock bs rest regs .knockRx s) :=
  exchange_takes hwr hdec hd _ _ _ _

theorem algsel_takes (ha : s.profile.hasAlgsel = true) : algsel s
    = .ok (matchesCode r s.profile.cmdOk) (afterExchange s.profile.txAlgsel bs rest regs .algRx s) :=
  (if_pos ha).trans (exchange_takes hwr hdec hd _ _ _ _)

theorem requestBlocks_takes :
    requestBlocks s = responseBranch r (afterExchange s.profile.txReqblk bs rest regs .reqRx s) :=
  exchange_takes hwr hdec hd _ _ _ _

end

theorem algsel_absent {s : State} (ha : s.profile.hasAlgsel = false) : algsel s = .ok true s := if_neg (by simp [ha])

/-- Settles O33: knock and select are the same exchange, with their own frames and phases. -/
theorem knockAndAlgsel : Obligations.KnockAndAlgsel := by
  intro s bs rest r regs code hwr hdec hd hcode
  obtain rfl : matchesCode r s.profile.cmdOk = code := Bool.eq_iff_iff.2 (matchesCode_iff.trans hcode.symm)
  refine ⟨?_, fun ha => ?_, fun ha => ?_⟩
  · rw [exec_knock, knock_takes hwr hdec hd]; rfl
  · rw [exec_algsel, algsel_takes hwr hdec hd ha]; rfl
  · rw [exec_algsel, algsel_absent ha]; rfl

/-! ## The response to a block request (R197 to R202) -/

section
variable {s : State} {f : Frame}

theorem responseBranch_wrapped (h : f.command = s.profile.cmdWrapped) : responseBranch (.ok f) s = wrappedBranch s := by
  simp [responseBranch, responseClass, h]

/-- The wrapped code is tested first (R197). -/
theorem responseBranch_direct (hw : f.command ≠ s.profile.cmdWrapped) (h : f.command = s.profile.cmdDirect) :
    responseBranch (.ok f) s = blockOrFlush f s.profile.offDirect s := by
  simp [responseBranch, responseClass, ← h, hw]

/-- Neither shape, or a direct one that is too short: the unrecognized branch (R200, R202). -/
theorem responseBranch_unrecognized {r : FrameResult} (h : ∀ f, r = .ok f → f.command ≠ s.profile.cmdWrapped
    ∧ (f.command = s.profile.cmdDirect → covers f s.profile.offDirect = false)) : responseBranch r s = flushNoBlock s := by
  cases r with
  | syncError code => rfl
  | ok f =>
    obtain ⟨hw, hshort⟩ := h f rfl
    by_cases hdir : f.command = s.profile.cmdDirect
    · rw [responseBranch_direct hw hdir, blockOrFlush_uncovered (hshort hdir)]
    · simp [responseBranch, responseClass, hw, hdir]

end

section
variable {s : State} {bs bs2 rest rest2 : List Byte} {f : Frame} {regs regs2 : Framer}

/-- The nested frame of a wrapped response stands right behind its marker (R199). -/
theorem delivers_afterExchange (hd : s.env.delivers bs rest) (hd2 : s.env.delivers (bs ++ bs2) rest2) (tx : List Byte)
    (ph : CcpPh) : (afterExchange tx bs rest regs ph s).env.delivers bs2 rest2 := by
  obtain ⟨-, rfl, -⟩ := hd
  exact (delivers_append hd2).2

theorem afterReads_afterExchange (tx : List Byte) (ph ph' : CcpPh) :
    afterReads bs2 rest2 ((setCcpPh ph' (afterExchange tx bs rest regs ph s)).setFrm regs2)
      = afterExchange tx (bs ++ bs2) rest2 regs2 ph' s :=
  afterReads_append bs bs2 rest rest2 (afterCamWrite tx { s with frm := regs2, ccp := { s.ccp with ph := ph' } })

variable (hwr : s.env.camWrFault = none) (hdec : Decodes s.profile s.frm bs (.ok f) regs) (hd : s.env.delivers bs rest)
  (hw : f.command = s.profile.cmdWrapped) (hd2 : s.env.delivers (bs ++ bs2) rest2)
include hwr hdec hd hw hd2

/-- A wrapped response stands for the frame nested in it, whatever its command (R198, R199). -/
theorem requestBlocks_nested_frame {g : Frame} (hdec2 : Decodes s.profile regs bs2 (.ok g) regs2) : requestBlocks s
    = blockOrFlush g s.profile.offWrapped (afterExchange s.profile.txReqblk (bs ++ bs2) rest2 regs2 .nestRx s) := by
  have hnested := wrappedBranch_frame (s := afterExchange s.profile.txReqblk bs rest regs .reqRx s)
    (delivers_afterExchange hd hd2 _ _) hdec2
  rw [requestBlocks_takes hwr hdec hd, responseBranch_wrapped (by exact hw), hnested, afterReads_afterExchange,
    afterExchange_profile]

/-- A wrapped marker without a nested frame is unrecognized (R200). -/
theorem requestBlocks_nested_syncError {code : SyncCode} (hdec2 : Decodes s.profile regs bs2 (.syncError code) regs2) :
    requestBlocks s = flushNoBlock (afterExchange s.profile.txReqblk (bs ++ bs2) rest2 regs2 .nestRx s) := by
  have hnested := wrappedBranch_syncError (s := afterExchange s.profile.txReqblk bs rest regs .reqRx s)
    (delivers_afterExchange hd hd2 _ _) hdec2
  rw [requestBlocks_takes hwr hdec hd, responseBranch_wrapped (by exact hw), hnested, afterReads_afterExchange]

end

/-- Settles O35: either shape leads to `blockOrFlush` of its frame, whose payload covers the offsets. -/
theorem requestBlocksReturnsTheBlock : Obligations.RequestBlocksReturnsTheBlock := by
  intro s bs rest f regs b hwr hdec hd
  refine ⟨fun hw hdir hc hb => ?_, fun bs2 rest2 g regs2 hw hdec2 hd2 hc hb => ?_⟩
  · have hbranch := responseBranch_direct (s := afterExchange s.profile.txReqblk bs rest regs .reqRx s) hw hdir
    rw [exec_requestBlocks, requestBlocks_takes hwr hdec hd, hbranch, afterExchange_profile,
      blockOrFlush_covered hc hb]
    rfl
  · rw [exec_requestBlocks, requestBlocks_nested_frame hwr hdec hd hw hd2 hdec2, blockOrFlush_covered hc hb]; rfl

/-- Settles O36: every other response leads to `flushNoBlock`, which reads the chunks that follow it. -/
theorem requestBlocksFlushesTheRest : Obligations.RequestBlocksFlushesTheRest := by
  intro s bs rest r regs cs last rest' fr hwr hfl
  refine ⟨fun hdec hd hchunks hno => ?_, fun bs1 bs2 rest1 f regs1 hw hdec1 hd1 hdec2 hd2 hchunks hshort => ?_⟩
  · have hbranch := responseBranch_unrecognized (s := afterExchange s.profile.txReqblk bs rest regs .reqRx s) hno
    rw [exec_requestBlocks, requestBlocks_takes hwr hdec hd, hbranch,
      flushNoBlock_of_flushes (s := afterExchange s.profile.txReqblk bs rest regs .reqRx s) hfl hchunks]
    rfl
  · have hbranch : requestBlocks s = flushNoBlock (afterExchange s.profile.txReqblk (bs1 ++ bs2) rest regs .nestRx s) := by
      cases r with
      | ok g => rw [requestBlocks_nested_frame hwr hdec1 hd1 hw hd2 hdec2, blockOrFlush_uncovered (hshort g rfl)]
      | syncError code => exact requestBlocks_nested_syncError hwr hdec1 hd1 hw hd2 hdec2
    rw [exec_requestBlocks, hbranch,
      flushNoBlock_of_flushes (s := afterExchange s.profile.txReqblk (bs1 ++ bs2) rest regs .nestRx s) hfl hchunks]
    rfl

end Sys2Proof.Machine
end

section
/-! PROOFS. The family 45_camera_protocol.md, second part: the camera path whatever the camera does. An operation is followed
transaction by transaction (`Eff.Transacts`): it returns or ends in a `CamFault`, after a bounded number of transactions that
change the camera path's state alone. `handshake_transacts` and `requestBlocks_transacts` make up `cameraData_reports`. -/

namespace Sys2Proof.Machine

/-! ## Camera transactions -/

/-- `t` differs from `s` only in `CONNECTED`, the registers of the framer, the flusher and the protocol, and the channel. -/
def cameraOnly (s t : State) : Prop :=
  channelOnly { s with connected := t.connected, frm := t.frm, flu := t.flu, ccp := t.ccp } t

section
variable {s t u : State}

theorem cameraOnly.trans (h : cameraOnly s t) (g : cameraOnly t u) : cameraOnly s u := by
  unfold cameraOnly channelOnly at *
  rw [h] at g
  exact g

theorem cameraOnly.profile (h : cameraOnly s t) : t.profile = s.profile := by rw [h]

theorem cameraOnly.ret (h : cameraOnly s t) : t.ret = s.ret := by rw [h]

theorem cameraOnly.sameButCamera_setRet (h : cameraOnly s t) (r : Ret) : sameButCamera s (t.setRet r) := by
  unfold sameButCamera
  rw [h]
  rfl

end

/-- A camera transaction that has completed. -/
def Event.isAnswered : Event → Bool
  | .camRead _ _ | .camWrite _ => true
  | _ => false

theorem Event.isCamera_of_isAnswered {e : Event} (h : e.isAnswered = true) : e.isCamera = true := by
  cases e with
  | camRead | camWrite => rfl
  | upRead | upWrite | camFault | pin | analog | sleep | diag | fatal => cases h

/-- From `s` to `t` there are at most `n` events, all of the kind `p`, and only the camera path's state has changed. -/
structure Transacted (p : Event → Prop) (n : Nat) (s t : State) : Prop where
  kept : cameraOnly s t
  events : ∃ es, t.trace = es ++ s.trace ∧ es.length ≤ n ∧ ∀ e ∈ es, p e

section
variable {p p' : Event → Prop} {m n : Nat} {s t u : State}

theorem Transacted.trans (h : Transacted p m s t) (g : Transacted p n t u) : Transacted p (m + n) s u := by
  obtain ⟨es, htr, hlen, hp⟩ := h.events
  obtain ⟨es', htr', hlen', hp'⟩ := g.events
  refine ⟨h.kept.trans g.kept, es' ++ es, by rw [htr', htr, List.append_assoc], ?_, fun e he => ?_⟩
  · rw [List.length_append]; omega
  · exact (List.mem_append.1 he).elim (hp' e) (hp e)

theorem Transacted.mono (h : Transacted p m s t) (hp : ∀ e, p e → p' e) (hmn : m ≤ n) : Transacted p' n s t := by
  obtain ⟨es, htr, hlen, hes⟩ := h.events
  exact ⟨h.kept, es, htr, hlen.trans hmn, fun e he => hp e (hes e he)⟩

/-- Register updates make no event. -/
theorem transacted_of_update (hkept : cameraOnly s t) (htr : t.trace = s.trace) : Transacted p 0 s t :=
  ⟨hkept, [], htr, le_rfl, nofun⟩

theorem Transacted.update (h : Transacted p n s t) (hkept : cameraOnly t u := by rfl) (htr : u.trace = t.trace := by rfl) :
    Transacted p n s u := h.trans (transacted_of_update hkept htr)

end

/-- The effect returns, with `q`, or ends in a `CamFault`, after at most `n` transactions from `s`; they have all completed
where it returns. -/
def Eff.Transacts {α : Type} (s : State) (n : Nat) (q : α → State → Prop) : Eff α → Prop
  | .ok a t => Transacted (fun e => e.isAnswered = true) n s t ∧ q a t
  | .camFault _ t => Transacted (fun e => e.isCamera = true) n s t
  | .fatal _ _ | .blocked _ | .stop _ => False

section
variable {α β : Type} {s t : State} {m : Eff α} {k n max : Nat} {q q' : α → State → Prop} {r : β → State → Prop}

theorem Eff.Transacts.mono (hm : m.Transacts s k q) (hkn : k ≤ n) (hq : ∀ a t, q a t → q' a t) : m.Transacts s n q' := by
  cases m with
  | ok a t => exact ⟨hm.1.mono (fun _ h => h) hkn, hq a t hm.2⟩
  | camFault c t => exact Transacted.mono hm (fun _ h => h) hkn
  | fatal | blocked | stop => exact hm

/-- What has come before an operation. -/
theorem Eff.Transacts.after (h : Transacted (fun e => e.isAnswered = true) k s t) (hm : m.Transacts t n q)
    (hmax : k + n ≤ max) : m.Transacts s max q := by
  cases m with
  | ok a u => exact ⟨(h.trans hm.1).mono (fun _ he => he) hmax, hm.2⟩
  | camFault c u => exact ((h.mono (fun _ => Event.isCamera_of_isAnswered) le_rfl).trans hm).mono (fun _ he => he) hmax
  | fatal | blocked | stop => exact hm

/-- The rule for sequences. -/
theorem Eff.Transacts.andThen {f : α → State → Eff β} (hm : m.Transacts s k q)
    (hf : ∀ a t, t.profile = s.profile → q a t → (f a t).Transacts t n r) (hmax : k + n ≤ max) :
    (m.andThen f).Transacts s max r := by
  cases m with
  | ok a t => exact (hf a t hm.1.kept.profile hm.2).after hm.1 hmax
  | camFault c t => exact Transacted.mono hm (fun _ h => h) (by omega)
  | fatal | blocked | stop => exact hm

/-- An operation without a transaction. -/
theorem transacts_ok {a : α} (hq : q a t) (hkept : cameraOnly s t := by rfl) (htr : t.trace = s.trace := by rfl) :
    (Eff.ok a t).Transacts s n q :=
  ⟨(transacted_of_update hkept htr).mono (fun _ h => h) n.zero_le, hq⟩

/-- Register updates before the first transaction. -/
theorem Eff.Transacts.of_update (hm : m.Transacts t n q) (hkept : cameraOnly s t := by rfl)
    (htr : t.trace = s.trace := by rfl) : m.Transacts s n q :=
  hm.after (transacted_of_update hkept htr) (Nat.zero_add n).le

/-- Such an operation, called by itself, always ends. -/
theorem Eff.Transacts.close {m : Eff Unit} {q : Unit → State → Prop} (hm : m.Transacts s n q) : ∃ u, m.close = .next u := by
  cases m with
  | ok | camFault => exact ⟨_, rfl⟩
  | fatal | blocked | stop => exact hm.elim

theorem Eff.andThen_eq_ok {f : α → State → Eff β} {b : β} (h : m.andThen f = .ok b t) :
    ∃ a u, m = .ok a u ∧ f a u = .ok b t := by
  cases m with
  | ok a u => exact ⟨a, u, rfl, h⟩
  | camFault | fatal | blocked | stop => cases h

/-- What such an operation leaves is the state in which it returns its value, or that of DeviceAbsent. -/
theorem Eff.Transacts.answer_next (hm : m.Transacts s n q) {g : α → Ret} (h : m.answer g = .next t) :
    (∃ a u, m = .ok a u ∧ t = u.setRet (g a))
      ∨ ∃ k u, m = .camFault k u ∧ t = (takeAbsent u).setRet (.bytes (absentReport u)) := by
  cases m with
  | ok a u => cases h; exact .inl ⟨a, u, rfl, rfl⟩
  | camFault k u => cases h; exact .inr ⟨k, u, rfl, rfl⟩
  | fatal | blocked | stop => exact hm.elim

end

/-! ## The transactions of the path -/

section
variable (s : State)

theorem camWrite_transacts (bs : List Byte) :
    (camWrite bs s).Transacts s 1 fun _ t => t.connected = s.connected ∧ t.ccp = s.ccp := by
  rcases camWrite_cases bs s with h | ⟨k, h⟩ <;> rw [h]
  · exact ⟨⟨rfl, [.camWrite bs], rfl, le_rfl, by simp [Event.isAnswered]⟩, rfl, rfl⟩
  · exact ⟨rfl, [.camFault k], rfl, le_rfl, by simp [Event.isCamera]⟩

/-- A pass of the flush makes at most one transaction (44_flusher.md R181). -/
theorem stepFlush_transacts :
    (stepFlush s).Transacts s 1 fun _ t => t.connected = s.connected ∧ t.ccp = s.ccp := by
  unfold stepFlush
  split
  · rcases camRead_cases Config.flushChunk s with h | ⟨f, h⟩ <;> rw [h]
    · exact ⟨⟨rfl, [.camRead _ _], rfl, le_rfl, by simp [Event.isAnswered]⟩, rfl, rfl⟩
    · exact ⟨rfl, [.camFault f.kind], rfl, le_rfl, by simp [Event.isCamera]⟩
  · exact transacts_ok ⟨rfl, rfl⟩

variable {s}

theorem flushLoop_transacts (n : Nat) :
    (flushLoop n s).Transacts s n fun _ t => t.connected = s.connected ∧ t.ccp = s.ccp := by
  induction n generalizing s with
  | zero => exact transacts_ok ⟨rfl, rfl⟩
  | succ n ih =>
    refine (stepFlush_transacts s).andThen (n := n) (fun r t _ ⟨hconn, hccp⟩ => ?_) (by omega)
    cases r with
    | some r => exact transacts_ok ⟨hconn, hccp⟩
    | none => rw [← hconn, ← hccp]; exact ih

/-- A decode that returns has taken a stream of `Decodes`. -/
theorem frameDecode_ok {r : FrameResult} {t : State} (h : frameDecode s = .ok r t) : ∃ bs rest regs,
    Decodes s.profile s.frm bs r regs ∧ s.env.delivers bs rest ∧ bs.length ≤ 323 ∧ t = afterReads bs rest (s.setFrm regs) := by
  have hreads := frameDecode_reads s
  rw [h] at hreads
  obtain ⟨bs, rest, -, hd, hle, ⟨r', regs, hdec⟩, -⟩ := hreads
  have hmax : bs.length ≤ 323 := hle.trans (by split <;> omega)
  rw [frameDecode_takes hdec rest hd] at h
  cases h
  exact ⟨bs, rest, regs, hdec, hd, hmax, rfl⟩

/-- A frame that a decode returns has the payload it announces (10_state.md R32). -/
theorem Decodes.payload_length {P : Profile} {old regs : Framer} {bs : List Byte} {f : Frame}
    (h : Decodes P old bs (.ok f) regs) : f.payload.length = f.length.toNat := by
  cases h with
  | frame pre gap f hpre hno1 hgap hno2 hpay => exact (toNat_lengthByte hpay).symm

/-- A decode makes at most 323 transactions (43_framer.md R166). -/
theorem frameDecode_transacts (s : State) : (frameDecode s).Transacts s 323 fun r t =>
    t.connected = s.connected ∧ t.ccp = s.ccp ∧ ∀ f, r = .ok f → f.payload.length = f.length.toNat := by
  cases hm : frameDecode s with
  | ok r t =>
    obtain ⟨bs, rest, regs, hdec, -, hle, rfl⟩ := frameDecode_ok hm
    refine ⟨⟨rfl, _, rfl, by simpa using hle, ?_⟩, rfl, rfl, fun f hf => by subst hf; exact hdec.payload_length⟩
    simp [Event.isAnswered]
  | camFault k t =>
    have hreads := frameDecode_reads s
    rw [hm] at hreads
    obtain ⟨n, f, regs, -, hlt, -, rfl⟩ := hreads
    have hmax : n < 323 := hlt.trans_le (by split <;> omega)
    exact ⟨rfl, _, rfl, by simpa using hmax, by simp [Event.isCamera]⟩
  | fatal | blocked | stop =>
    have hreads := frameDecode_reads s
    rw [hm] at hreads
    exact hreads

/-- An exchange makes at most 324, and then what is made of its answer. -/
theorem exchange_transacts {α : Type} {q : α → State → Prop} {n max : Nat} (tx : List Byte) (ph ph' : CcpPh)
    {f : FrameResult → State → Eff α}
    (hf : ∀ r t, t.profile = s.profile → t.connected = s.connected → t.ccp = { s.ccp with ph := ph' } →
      (∀ g, r = .ok g → g.payload.length = g.length.toNat) → (f r t).Transacts t n q) (hmax : 324 + n ≤ max) :
    ((camWrite tx (setCcpPh ph s)).andThen fun _ t => (frameDecode (setCcpPh ph' t)).andThen f).Transacts s max q := by
  have hwrite := (camWrite_transacts (setCcpPh ph s) tx).of_update (s := s)
  refine hwrite.andThen (n := 323 + n) (fun _ t hP ⟨hconn, hccp⟩ => ?_) (by omega)
  refine ((frameDecode_transacts (setCcpPh ph' t)).of_update (s := t)).andThen (n := n)
    (fun r u hP' ⟨hconn', hccp', hlen⟩ => ?_) le_rfl
  exact hf r u (hP'.trans hP) (hconn'.trans hconn) (by rw [hccp', setCcpPh, State.setCcp_ccp, hccp]; rfl) hlen

end

/-! ## The handshake (R192 to R195) -/

section
variable (s : State)

theorem knock_transacts : (knock s).Transacts s 324 fun _ t => t.ccp.blkValid = s.ccp.blkValid :=
  exchange_transacts (n := 0) _ _ _ (fun _ _ _ _ hccp _ => transacts_ok (by rw [hccp])) le_rfl

theorem algsel_transacts : (algsel s).Transacts s 324 fun _ t => t.ccp.blkValid = s.ccp.blkValid := by
  unfold algsel
  split
  · exact exchange_transacts (n := 0) _ _ _ (fun _ _ _ _ hccp _ => transacts_ok (by rw [hccp])) le_rfl
  · exact transacts_ok rfl

/-- A handshake extracts no block. -/
theorem handshake_transacts : (handshake s).Transacts s 648 fun _ t => t.ccp.blkValid = s.ccp.blkValid := by
  refine (knock_transacts s).andThen (n := 324) (fun known t _ hvalid => ?_) le_rfl
  cases known with
  | false => exact transacts_ok hvalid
  | true => exact (algsel_transacts t).andThen (n := 0) (fun _ _ _ h => transacts_ok (h.trans hvalid)) le_rfl

end

/-- An exchange that returns has written its frame and decoded the answer. -/
theorem exchange_ok {α : Type} {s u : State} {tx : List Byte} {ph ph' : CcpPh} {f : FrameResult → State → Eff α} {a : α}
    (h : ((camWrite tx (setCcpPh ph s)).andThen fun _ t => (frameDecode (setCcpPh ph' t)).andThen f) = .ok a u) :
    ∃ bs rest r regs, s.env.camWrFault = none ∧ Decodes s.profile s.frm bs r regs ∧ s.env.delivers bs rest := by
  obtain ⟨_, t, hwrite, h⟩ := Eff.andThen_eq_ok h
  obtain ⟨r, _, hm, -⟩ := Eff.andThen_eq_ok h
  cases hwr : s.env.camWrFault with
  | some f => rw [camWrite_fault (s := setCcpPh ph s) hwr] at hwrite; cases hwrite
  | none =>
    rw [camWrite_ok (s := setCcpPh ph s) hwr] at hwrite
    cases hwrite
    obtain ⟨bs, rest, regs, hdec, hd, -, -⟩ := frameDecode_ok hm
    exact ⟨bs, rest, r, regs, rfl, hdec, hd⟩

/-- What a select does depends on no value that an operation has returned (log 3). -/
theorem algsel_setRet {s t : State} {selected : Bool} (h : algsel s = .ok selected t) (x : Ret) :
    algsel (s.setRet x) = .ok selected (t.setRet x) := by
  cases ha : s.profile.hasAlgsel with
  | false =>
    rw [algsel_absent ha] at h
    cases h
    exact algsel_absent (s := s.setRet x) ha
  | true =>
    obtain ⟨bs, rest, r, regs, hwr, hdec, hd⟩ := exchange_ok ((if_pos ha).symm.trans h)
    rw [algsel_takes hwr hdec hd ha] at h
    cases h
    exact algsel_takes (s := s.setRet x) hwr hdec hd ha

/-- Settles O34: what the handshake leaves is what its last exchange returned and left. -/
theorem handshakeSetsConnected : Obligations.HandshakeSetsConnected := by
  intro s
  refine ⟨(handshake_transacts s).close, fun t known hknock hret => ?_⟩
  obtain ⟨known', u, hu, rfl⟩ | ⟨_, _, -, rfl⟩ := (knock_transacts s).answer_next hknock
  case inr => cases hret
  cases hret
  have hkept := knock_transacts s
  rw [hu] at hkept
  rw [exec_handshake, handshake, hu, Eff.andThen_ok, ← hkept.1.kept.ret]
  refine ⟨fun hk => ?_, fun hk ha => ?_, fun v selected hk ha halgsel hsel => ?_⟩
  · subst hk; rfl
  · subst hk
    rw [if_pos rfl, algsel_absent (by rw [hkept.1.kept.profile, ha])]
    rfl
  · subst hk
    obtain ⟨selected', w, hw, rfl⟩ | ⟨_, _, -, rfl⟩ := (algsel_transacts _).answer_next halgsel
    case inr => cases hsel
    cases hsel
    rw [if_pos rfl, show algsel u = .ok selected (w.setRet u.ret) from algsel_setRet hw u.ret]
    rfl

/-! ## The block request (R197 to R202) -/

/-- `b` is the block in the registers, of a camera that is connected. -/
def Extracted (b : Block) (s : State) : Prop := s.connected = true ∧ s.ccp.blkValid = true ∧ s.ccp.blk = b

section
variable {s : State} (hconn : s.connected = true)
include hconn

omit hconn in
theorem flushNoBlock_transacts :
    (flushNoBlock s).Transacts s s.profile.flushMax fun blk t => ∀ b, blk = some b → Extracted b t :=
  ((flushLoop_transacts (s := flushStart (setCcpPh .flush s)) s.profile.flushMax).of_update).andThen (n := 0)
    (fun _ _ _ _ => transacts_ok nofun) le_rfl

theorem blockOrFlush_transacts {f : Frame} (off : Offsets) (hlen : f.payload.length = f.length.toNat) :
    (blockOrFlush f off s).Transacts s s.profile.flushMax fun blk t => ∀ b, blk = some b → Extracted b t := by
  cases hc : covers f off with
  | true =>
    obtain ⟨b, hb⟩ := blockAt_isSome f.payload off (by rw [hlen]; exact hc)
    rw [blockOrFlush_covered hc hb]
    exact transacts_ok fun _ h => by cases h; exact ⟨hconn, rfl, rfl⟩
  | false => rw [blockOrFlush_uncovered hc]; exact flushNoBlock_transacts

theorem wrappedBranch_transacts : (wrappedBranch s).Transacts s (323 + s.profile.flushMax) fun blk t =>
    ∀ b, blk = some b → Extracted b t := by
  refine ((frameDecode_transacts (setCcpPh .nestRx s)).of_update).andThen (n := s.profile.flushMax)
    (fun r t hP ⟨ht, _, hlen⟩ => ?_) le_rfl
  rw [← hP]
  cases r with
  | ok g => exact blockOrFlush_transacts (ht.trans hconn) _ (hlen g rfl)
  | syncError code => exact flushNoBlock_transacts

theorem responseBranch_transacts {r : FrameResult} (hlen : ∀ f, r = .ok f → f.payload.length = f.length.toNat) :
    (responseBranch r s).Transacts s (323 + s.profile.flushMax) fun blk t => ∀ b, blk = some b → Extracted b t := by
  have hflush := (flushNoBlock_transacts (s := s)).mono (Nat.le_add_left _ 323) fun _ _ h => h
  cases r with
  | syncError code => exact hflush
  | ok f =>
    unfold responseBranch
    dsimp only
    cases responseClass s.profile f.command with
    | wrapped => exact wrappedBranch_transacts hconn
    | direct => exact (blockOrFlush_transacts hconn _ (hlen f rfl)).mono (Nat.le_add_left _ 323) fun _ _ h => h
    | unknown => exact hflush

theorem requestBlocks_transacts : (requestBlocks s).Transacts s (647 + s.profile.flushMax) fun blk t =>
    ∀ b, blk = some b → Extracted b t := by
  refine exchange_transacts (n := 323 + s.profile.flushMax) _ _ _ (fun r t hP ht _ hlen => ?_) (by omega)
  rw [← hP]
  exact responseBranch_transacts (ht.trans hconn) hlen

end

/-! ## `CAMERA_DATA` (R204 to R207) -/

theorem cameraTry_of_connected {s : State} (h : s.connected = true) : cameraTry s = requestBlocks s := by
  simp [cameraTry, h]

theorem cameraTry_of_absent {s : State} (h : s.connected = false) :
    cameraTry s = (handshake s).andThen fun _ t => if t.connected then requestBlocks t else .ok none t := by
  simp [cameraTry, h]

theorem cameraTry_transacts (s : State) : (cameraTry s).Transacts s (3 + 4 * 323 + s.profile.flushMax) fun blk t =>
    ∀ b, blk = some b → Extracted b t := by
  cases hconn : s.connected with
  | true =>
    rw [cameraTry_of_connected hconn]
    exact (requestBlocks_transacts hconn).mono (by omega) fun _ _ h => h
  | false =>
    rw [cameraTry_of_absent hconn]
    refine (handshake_transacts s).andThen (n := 647 + s.profile.flushMax) (fun _ t hP _ => ?_) (by omega)
    split
    · next ht => rw [← hP]; exact requestBlocks_transacts ht
    · exact transacts_ok nofun

/-- The start of `CAMERA_DATA`. -/
def clearBlkValid (s : State) : State := s.setCcp { s.ccp with blkValid := false }

theorem cameraData_eq (s : State) : cameraData s = catchCamFault ((cameraTry (clearBlkValid s)).andThen fun blk t =>
    .ok (blockReportBytes t.profile blk) (setCcpPh .done t)) := rfl

theorem cameraData_of_ok {s t : State} {blk : Option Block} (h : cameraTry (clearBlkValid s) = .ok blk t) :
    cameraData s = .ok (blockReportBytes t.profile blk) (setCcpPh .done t) := by
  rw [cameraData_eq, h]; rfl

/-- The catch of R204. -/
theorem cameraData_of_camFault {s t : State} {k : CamFaultKind} (h : cameraTry (clearBlkValid s) = .camFault k t) :
    cameraData s = .ok (blockReportBytes t.profile none) (takeAbsent t) := by
  rw [cameraData_eq, h]; rfl

/-- A camera transaction; only one of an absent camera may have faulted. -/
def CameraEvent (connected : Bool) (e : Event) : Prop := e.isCamera = true ∧ ∀ k, e = .camFault k → connected = false

theorem cameraEvent_of_isAnswered {c : Bool} {e : Event} (h : e.isAnswered = true) : CameraEvent c e :=
  ⟨Event.isCamera_of_isAnswered h, fun k hk => by subst hk; cases h⟩

/-- However it ends, `CAMERA_DATA` reports a block that has been extracted, or none. -/
theorem cameraData_reports (s : State) : ∃ blk t, cameraData s = .ok (blockReportBytes s.profile blk) t ∧ t.ccp.ph = .done
    ∧ Transacted (CameraEvent t.connected) (3 + 4 * 323 + s.profile.flushMax) s t ∧ ∀ b, blk = some b → Extracted b t := by
  have htry := (cameraTry_transacts (clearBlkValid s)).of_update (s := s)
  cases hm : cameraTry (clearBlkValid s) with
  | ok blk t =>
    rw [hm] at htry
    obtain ⟨htrans, hblk⟩ := htry
    refine ⟨blk, setCcpPh .done t, by rw [cameraData_of_ok hm, htrans.kept.profile], rfl, ?_, hblk⟩
    exact (htrans.mono (fun _ => cameraEvent_of_isAnswered) le_rfl).update
  | camFault k t =>
    rw [hm] at htry
    have hkept : cameraOnly s t := Transacted.kept htry
    refine ⟨none, takeAbsent t, by rw [cameraData_of_camFault hm, hkept.profile], rfl, ?_, nofun⟩
    exact (Transacted.mono htry (p' := CameraEvent false) (fun _ he => ⟨he, fun _ _ => rfl⟩) le_rfl).update
  | fatal | blocked | stop => rw [hm] at htry; exact htry.elim

/-- Settles O40: the report and the state are those of `cameraData_reports`. -/
theorem cameraDataAlwaysReports : Obligations.CameraDataAlwaysReports := by
  intro s
  obtain ⟨blk, t, hdata, hph, ⟨hkept, events, htr, hlen, hev⟩, hblk⟩ := cameraData_reports s
  refine ⟨t.setRet (.bytes (blockReportBytes s.profile blk)), blockReportBytes s.profile blk, events, ?_, rfl,
    hkept.sameButCamera_setRet _, hph, blockReportBytes_length _ _, fun hne => ?_, fun habsent => ?_, htr,
    fun e he => (hev e he).1, fun ⟨k, hk⟩ => (hev _ hk).2 k rfl, hlen, ?_⟩
  · rw [exec_cameraData, hdata]; rfl
  · cases blk with
    | none => exact absurd rfl hne
    | some b =>
      obtain ⟨hconn, hvalid, rfl⟩ := hblk b rfl
      exact ⟨hconn, hvalid, rfl⟩
  · cases blk with
    | none => rfl
    | some b =>
      obtain ⟨hconn, -⟩ := hblk b rfl
      exact absurd (hconn.symm.trans habsent) (by decide)
  · rw [exec_camData, camData, hdata, Eff.andThen_ok, Eff.close_ok]
    have harb : t.arb = s.arb := by rw [hkept]
    simp only [loadResp, harb, ← hkept.ret]
    rfl

/-- After the handshake a camera that is absent ends the command with the zero report; otherwise the rest is a `CAMERA_DATA` of
the connected camera. -/
theorem exec_cameraData_of_handshake {s t : State} (habsent : s.connected = false)
    (h : handshake (clearBlkValid s) = .ok () t) :
    (t.connected = false → exec .cameraData s = .next (afterAbsent t))
      ∧ (t.connected = true → exec .cameraData s = exec .cameraData t) := by
  have htry := cameraTry_of_absent (s := clearBlkValid s) habsent
  rw [h, Eff.andThen_ok] at htry
  refine ⟨fun hc => ?_, fun hc => ?_⟩
  · rw [if_neg (by rw [hc]; decide)] at htry
    rw [exec_cameraData, cameraData_of_ok htry, afterAbsent, ← hc]
    rfl
  · have hclear : clearBlkValid t = t := by
      have hkept := handshake_transacts (clearBlkValid s)
      rw [h] at hkept
      have hvalid : t.ccp.blkValid = false := hkept.2
      rw [clearBlkValid, ← hvalid]; rfl
    have hsame : cameraTry (clearBlkValid s) = cameraTry (clearBlkValid t) := by
      rw [htry, if_pos hc, hclear, cameraTry_of_connected hc]
    rw [exec_cameraData, exec_cameraData, cameraData_eq, cameraData_eq, hsame]

/-- Settles O41: the two endings of a request, and those of a handshake. -/
theorem cameraDataStepByStep : Obligations.CameraDataStepByStep := by
  intro s t
  have hreport (hconn : s.connected = true) := requestBlocks_transacts (s := clearBlkValid s) hconn
  have htry (hconn : s.connected = true) := cameraTry_of_connected (s := clearBlkValid s) hconn
  refine ⟨fun b hconn hreq hret => ?_, fun hconn hreq hno => ?_, fun habsent hhand => ?_⟩
  · have hkept := hreport hconn
    obtain ⟨blk, u, hu, rfl⟩ | ⟨_, _, -, rfl⟩ := hkept.answer_next hreq
    case inr => cases hret
    cases hret
    rw [hu] at hkept
    rw [exec_cameraData, cameraData_of_ok ((htry hconn).trans hu), hkept.1.kept.profile]
    rfl
  · have hkept := hreport hconn
    obtain ⟨blk, u, hu, rfl⟩ | ⟨k, u, hu, rfl⟩ := hkept.answer_next hreq
    case inl => exact absurd rfl (hno blk)
    rw [hu] at hkept
    have hP : u.profile = s.profile := (Transacted.kept hkept).profile
    refine ⟨?_, rfl, by rw [← hP]; rfl⟩
    rw [exec_cameraData, cameraData_of_camFault ((htry hconn).trans hu)]
    rfl
  · change (handshake (clearBlkValid s)).close = .next t at hhand
    have hends := handshake_transacts (clearBlkValid s)
    cases hm : handshake (clearBlkValid s) with
    | ok _ u =>
      rw [hm] at hhand
      cases hhand
      exact exec_cameraData_of_handshake habsent hm
    | camFault k u =>
      rw [hm] at hhand
      cases hhand
      refine ⟨fun _ => ?_, nofun⟩
      rw [exec_cameraData, cameraData_of_camFault (k := k) (t := u) (by rw [cameraTry_of_absent (by exact habsent), hm]; rfl)]
      rfl
    | fatal | blocked | stop => rw [hm] at hends; exact hends.elim

end Sys2Proof.Machine
end

section
/-! PROOFS. The family 45_camera_protocol.md, third part: what changes `CONNECTED`. A call of the loop leaves it alone
(`Eff.KeepsConnected`), but for the camera command's: its decode may end the handshake, and its fault or a refused answer may
return the zero report (`stepCamera_connection`). -/

namespace Sys2Proof.Machine

/-! ## Calls that leave `CONNECTED` alone -/

theorem Eff.CallFrom.returns {α : Type} {inTry : Prop} {s : State} {q : α → State → Prop} {m : Eff α}
    (hm : m.CallFrom inTry s q) : m.Returns q := by
  cases m with
  | ok a t => exact hm
  | camFault | fatal | blocked | stop => trivial

theorem Eff.Returns.mono {α : Type} {q r : α → State → Prop} {m : Eff α} (hm : m.Returns q) (hqr : ∀ a t, q a t → r a t) :
    m.Returns r := by
  cases m with
  | ok a t => exact hqr a t hm
  | camFault | fatal | blocked | stop => trivial

/-- Where the effect returns, `CONNECTED` is that of `s`. -/
def Eff.KeepsConnected {α : Type} (s : State) (m : Eff α) : Prop := m.Returns fun _ t => t.connected = s.connected

/-- Register updates that follow a call leave `CONNECTED` alone by definition. -/
theorem Eff.KeepsConnected.update {α β : Type} {s : State} {m : Eff α} (hm : m.KeepsConnected s) {b : α → State → β}
    {g : α → State → State} (hg : ∀ a t, (g a t).connected = t.connected := by exact fun _ _ => rfl) :
    (m.andThen fun a t => .ok (b a t) (g a t)).KeepsConnected s :=
  Eff.Returns.andThen hm fun a t h => (hg a t).trans h

section
variable (s : State)

theorem pinSet_keepsConnected (pin : Pin) (l : Bool) : (pinSet pin l s).KeepsConnected s := by
  rcases pinSet_cases pin l s with h | h <;> rw [h]
  · rfl
  · trivial

theorem sleep_keepsConnected (d : Nat) : (sleep d s).KeepsConnected s := by
  rcases sleep_cases d s with h | h <;> rw [h]
  · rfl
  · trivial

theorem sample_keepsConnected : (sample s).KeepsConnected s := by
  rcases analogRead_cases s with ⟨_, _, _, h⟩ | ⟨_, h⟩ <;> rw [sample, h]
  · rfl
  · trivial

theorem camWrite_keepsConnected (bs : List Byte) : (camWrite bs s).KeepsConnected s := by
  rcases camWrite_cases bs s with h | ⟨_, h⟩ <;> rw [h]
  · rfl
  · trivial

theorem stepFlush_keepsConnected : (stepFlush s).KeepsConnected s := by
  unfold stepFlush
  split
  · rcases camRead_cases Config.flushChunk s with h | ⟨_, h⟩ <;> rw [h]
    · rfl
    · trivial
  · rfl

theorem waitCmd_keepsConnected : (waitCmd s).KeepsConnected s := by
  cases hm : s.arb.mode with
  | transmit => rw [waitCmd, upRead_transmit hm]; trivial
  | receive =>
    rcases upRead_cases hm with ⟨_, _, -, h⟩ | ⟨-, h⟩ | ⟨_, -, h⟩ <;> rw [waitCmd, h]
    · rfl
    all_goals trivial

theorem upWrite_keepsConnected (bs : List Byte) : (upWrite bs s).KeepsConnected s := by
  cases hm : s.arb.mode with
  | receive => rw [upWrite_receive hm]; trivial
  | transmit =>
    cases hf : s.env.upWrFails
    · rw [upWrite_ok hm hf]; rfl
    · rw [upWrite_fatal hm hf]; trivial

theorem writeResp_keepsConnected : (writeResp s).KeepsConnected s := by
  unfold writeResp
  split
  · exact upWrite_keepsConnected s _
  · rfl

theorem stepScan_keepsConnected : (stepScan s).KeepsConnected s := by
  unfold stepScan
  cases s.scn.ph with
  | reset =>
    dsimp only
    split
    · exact (pinSet_keepsConnected s _ _).update.update
    · exact (pinSet_keepsConnected s _ _).update
  | adv =>
    dsimp only
    split
    · exact (pinSet_keepsConnected s _ _).update.update
    · exact (pinSet_keepsConnected s _ _).update
  | settleClk | settleAdc | interch => exact (sleep_keepsConnected s _).update
  | sample =>
    refine Eff.Returns.andThen (sample_keepsConnected s) fun _ t h => ?_
    split <;> exact h
  | idle | done => trivial

theorem dispatchEnter_connected : (dispatchEnter s).connected = s.connected := by
  unfold dispatchEnter; split <;> rfl

theorem takeFatal_connected (c : FatalCause) : (takeFatal c s).connected = s.connected := by
  unfold takeFatal restoreDir
  cases s.arb.mode with
  | receive => rfl
  | transmit => dsimp only; split <;> rfl

theorem enterFatal_connected (c : FatalCause) : (enterFatal c s).connected = s.connected := by
  unfold enterFatal
  cases s.arb.mode with
  | receive => exact takeFatal_connected s c
  | transmit => rfl

end

/-! ## The camera command's calls -/

/-- The handshake's last answer has come (45_camera_protocol.md R192, R194, R195). -/
structure Connects (s t : State) : Prop where
  kept : SameArbiter s t
  connected : t.connected = true
  answered : s.ccp.ph = .algRx ∨ (s.ccp.ph = .knockRx ∧ s.profile.hasAlgsel = false)
  requests : t.ccp.ph = .reqTx
  ok : ∃ f, t.frm.res = some (.ok f) ∧ f.command = s.profile.cmdOk

/-- What a call of the camera command does to `CONNECTED`: nothing, unless the handshake is over, or DeviceAbsent returns the
zero report. -/
def ConnectionWent (s t : State) : Prop :=
  t.connected = s.connected ∨ Connects s t ∨ ∃ u, SameArbiter s u ∧ t = absentReturn u

section
variable {s u : State} (h : SameExchange s u)
include h

theorem blockReturn_connection (f : Frame) (off : Offsets) : (blockReturn f off u).Returns fun _ => ConnectionWent s := by
  unfold blockReturn extract
  split
  · split
    · exact .inl h.connected
    · trivial
  · exact .inl h.connected

/-- A handshake's answer with the ok code: the select follows a knock, where the profile has it; any other was the last. -/
theorem handshakeStepOk_connection {f : Frame} (hph : u.ccp.ph = .knockRx ∨ u.ccp.ph = .algRx)
    (hres : u.frm.res = some (.ok f)) (hok : f.command = u.profile.cmdOk) : ConnectionWent s (handshakeStepOk u) := by
  unfold handshakeStepOk
  split
  · exact .inl h.connected
  · next hlast =>
    have hans : u.ccp.ph = .algRx ∨ (u.ccp.ph = .knockRx ∧ u.profile.hasAlgsel = false) := by
      rcases hph with hk | ha
      · exact .inr ⟨hk, by simpa [hk] using hlast⟩
      · exact .inl ha
    rw [h.ccp, h.profile] at hans
    exact .inr (.inl ⟨h.toSameArbiter.update, rfl, hans, rfl, f, hres, hok.trans (by rw [h.profile])⟩)

theorem handshakeReturn_connection {r : FrameResult} (hph : u.ccp.ph = .knockRx ∨ u.ccp.ph = .algRx)
    (hres : u.frm.res = some r) :
    (if matchesCode r u.profile.cmdOk then Eff.ok () (handshakeStepOk u) else .ok () (absentReturn u)).Returns
      fun _ => ConnectionWent s := by
  split
  · next hm =>
    obtain ⟨f, rfl, hok⟩ := matchesCode_iff.1 hm
    exact handshakeStepOk_connection h hph hres hok
  · exact .inr (.inr ⟨u, h.toSameArbiter, rfl⟩)

theorem protocolReturn_connection {r : FrameResult} (hres : u.frm.res = some r) :
    (protocolReturn r u).Returns fun _ => ConnectionWent s := by
  unfold protocolReturn
  cases hph : u.ccp.ph with
  | knockRx => exact handshakeReturn_connection h (.inl hph) hres
  | algRx => exact handshakeReturn_connection h (.inr hph) hres
  | reqRx =>
    cases r with
    | syncError code => exact .inl h.connected
    | ok f =>
      dsimp only
      cases responseClass u.profile f.command with
      | direct => exact blockReturn_connection h f _
      | wrapped | unknown => exact .inl h.connected
  | nestRx =>
    cases r with
    | syncError code => exact .inl h.connected
    | ok g => exact blockReturn_connection h g _
  | idle | knockTx | algTx | reqTx | flush | done => trivial

theorem decodeReturn_connection : (decodeReturn u).Returns fun _ => ConnectionWent s := by
  by_cases hd : u.frm.ph = .done
  · rw [decodeReturn_of_done hd]
    exact protocolReturn_connection (u := result u) ⟨h.toSameArbiter.update, h.connected, h.ccp⟩ rfl
  · rw [decodeReturn_of_not_done hd]
    exact .inl h.connected

end

theorem stepFrame_connection {s : State} (h : readDue s) : (stepFrame s).Returns fun _ => ConnectionWent s := by
  rw [stepFrame_eq h]
  exact (nextByte_call s).returns.andThen fun b t ht =>
    decodeReturn_connection (ht.sameExchange.trans (takeByte_framerOnly _ b t).sameExchange)

theorem stepCamera_connection {s : State} (h : cameraPoint s) : (stepCamera s).Returns fun _ => ConnectionWent s := by
  cases hph : s.ccp.ph with
  | knockRx | algRx | reqRx | nestRx =>
    obtain ⟨hp, hf⟩ := h.awaiting (by rw [hph]; trivial)
    rw [stepCamera_of_awaitsFrame hp.awaitsFrame]
    exact stepFrame_connection hf.readDue
  | knockTx | algTx | reqTx =>
    simp only [stepCamera, hph]
    exact Eff.Returns.andThen (camWrite_keepsConnected s _) fun _ _ ht => .inl ht
  | flush =>
    rw [stepCamera_flush hph]
    refine Eff.Returns.andThen (stepFlush_keepsConnected s) fun r t ht => .inl ?_
    cases r <;> exact ht
  | idle | done => simp [cameraPoint, hph] at h

/-- The catch of R204: a fault makes the camera absent. -/
theorem caughtCamera_connection {s : State} {m : Eff Unit} {q : Unit → State → Prop} (hcall : m.CallFrom True s q)
    (hm : m.Returns fun _ => ConnectionWent s) : (caughtCamera m).Returns fun _ => ConnectionWent s := by
  cases m with
  | camFault k u => exact .inr (.inr ⟨u, hcall.2, rfl⟩)
  | ok | fatal | blocked | stop => exact hm

/-! ## The step -/

/-- Only a call of the camera command may change `CONNECTED`. -/
theorem loopCall_connection {s : State} (hmax : 0 < s.profile.flushMax) (hi : Inv s) : (loopCall s).Returns fun _ t =>
    t.connected = s.connected ∨ (s.arb.ph = .dispatch ∧ uplinkCmd s.arb.cmd = .camData ∧ ConnectionWent s t) := by
  unfold loopCall
  cases hph : s.arb.ph with
  | setRx => exact Eff.Returns.andThen (pinSet_keepsConnected s _ _).update fun _ _ h => .inl h
  | waitCmd => exact Eff.Returns.andThen (waitCmd_keepsConnected s) fun _ _ h => .inl h
  | setTx =>
    exact Eff.Returns.andThen (pinSet_keepsConnected s _ _).update fun _ _ h => .inl ((dispatchEnter_connected _).trans h)
  | write => exact Eff.Returns.andThen (writeResp_keepsConnected s) fun _ _ h => .inl h
  | settle => exact Eff.Returns.andThen (sleep_keepsConnected s _) fun _ _ h => .inl h
  | halted => trivial
  | dispatch =>
    obtain ⟨-, hpt⟩ := hi.dispatch_transmits hph
    unfold handlerPoint at hpt
    dsimp only
    unfold stepHandler
    cases hc : uplinkCmd s.arb.cmd with
    | sigLo | sigHi => exact Eff.Returns.mono (stepScan_keepsConnected s) fun _ _ h => .inl h
    | unrecognized => exact .inl rfl
    | camData =>
      simp only [hc] at hpt
      exact Eff.Returns.mono (caughtCamera_connection (stepCamera_call hc hmax hpt) (stepCamera_connection hpt))
        fun _ _ h => .inr ⟨rfl, rfl, h⟩

/-- The zero report is the response, and is written next (46_arbiter.md R225, R230). -/
theorem respBytes_absentReturn (s : State) : respBytes (absentReturn s) = zeroReport s.profile := by
  refine firstBytes_writeFrom s.arb.resp (absentReport s) ?_
  rw [absentReport, blockReportBytes_length]
  split <;> decide

theorem absentReturn_ph (s : State) : (absentReturn s).arb.ph = .write := by
  refine if_neg (List.ne_nil_of_length_pos ?_)
  rw [absentReport, blockReportBytes_length]
  split <;> decide

/-- Settles O56: a step that changes `CONNECTED` is a call of the loop that returns, since no `Fatal` writes it, and so one of
the two of `ConnectionWent` that change it. -/
theorem whatChangesConnected : Obligations.WhatChangesConnected := by
  intro s t hr hi hstep hne
  obtain ⟨hh, hw, ⟨c, hs, rfl⟩ | ⟨hs, hclose⟩⟩ := step_cases hr.1 hstep
  · exact absurd (takeFatal_connected (s.setStopping none) c) hne
  obtain ⟨-, -, -, -, hmax, -⟩ := (profile_wf_iff s.profile).1 hw
  have hcall := loopCall_call hw hi hh hs
  have hconn := loopCall_connection hmax hi
  cases hm : loopCall s with
  | ok a u =>
    rw [hm] at hconn hclose
    cases hclose
    obtain ⟨hph, hcmd, hwent⟩ := hconn.resolve_left hne
    obtain hc | ⟨u, hkept, rfl⟩ := hwent.resolve_left hne
    · refine ⟨hph, hcmd, by rw [hc.kept.arb, hh], fun _ => ⟨hc.answered, hc.requests, hc.ok⟩, fun hf => ?_⟩
      exact absurd (hc.connected.symm.trans hf) (by decide)
    · have harb : u.arb.halt = false := by rw [hkept.arb, hh]
      exact ⟨hph, hcmd, harb, nofun, fun _ => ⟨absentReturn_ph u, by rw [respBytes_absentReturn, hkept.profile]⟩⟩
  | fatal c u =>
    rw [hm] at hcall hclose
    cases hclose
    exact absurd ((enterFatal_connected u c).trans hcall.sameExchange.connected) hne
  | blocked u =>
    rw [hm] at hcall hclose
    cases hclose
    cases hcall
    exact absurd rfl hne
  | camFault | stop => rw [hm] at hcall; exact absurd hcall (by simp [Eff.CallFrom])

end Sys2Proof.Machine
end

section
/-! PROOFS. The family 46_arbiter.md, first part: the arbiter's operations called by themselves. `SET_RX` and `SET_TX` are one
operation with two levels (`driveDir`); the equations of the primitives' endings (Laws/Ops.lean) give each clause. -/

namespace Sys2Proof.Machine

/-! ## `FATAL_STOP` (46_arbiter.md R232) -/

theorem exec_fatalStop (c : FatalCause) (s : State) : exec (.fatalStop c) s = .next (takeFatal c s) := rfl

theorem restoreDir_of_passing {s : State} (h : s.env.pinFails = false) : restoreDir s = { s with
    pins := { s.pins with dir := !s.profile.dirTxLevel }
    env := { s.env with pin := s.env.pin.tail }
    trace := .pin .dir (!s.profile.dirTxLevel) :: s.trace } := by
  rw [restoreDir, h]; rfl

/-- The failure is swallowed; the level is a free value (log 11). -/
theorem restoreDir_of_failing {s : State} (h : s.env.pinFails = true) : restoreDir s = { s with
    pins := { s.pins with dir := Config.freeLevel s.fresh }
    env := { s.env with pin := s.env.pin.tail }
    fresh := s.fresh + 1
    trace := .fatal .gpio :: s.trace } := by
  rw [restoreDir, h]; rfl

/-- Settles O12: in RECEIVE only the halt is latched; in TRANSMIT the restoring `PinSet` comes before it, with its two endings. -/
theorem fatalStopRestoresAndLatches : Obligations.FatalStopRestoresAndLatches := by
  intro c s
  refine ⟨fun hm => ?_, fun hm hp => ?_, fun hm hp => ⟨Config.freeLevel s.fresh, ?_⟩⟩
  · rw [exec_fatalStop, takeFatal_of_receive c hm]; rfl
  · rw [exec_fatalStop, takeFatal_of_transmit c hm, restoreDir_of_passing hp]; rfl
  · rw [exec_fatalStop, takeFatal_of_transmit c hm, restoreDir_of_failing hp]; rfl

/-! ## The direction and the mode (R222, R224) -/

/-- The direction pin at the level `l`, then the mode `md`. -/
def driveDir (l : Bool) (md : Mode) (s : State) : Eff Unit :=
  (pinSet .dir l s).andThen fun _ t => .ok () (setMode md t)

section
variable (s : State)
theorem setRx_eq : setRx s = driveDir (!s.profile.dirTxLevel) .receive s := rfl
theorem setTx_eq : setTx s = driveDir s.profile.dirTxLevel .transmit s := rfl
theorem exec_setRx : exec .setRx s = (setRx s).close := rfl
theorem exec_setTx : exec .setTx s = (setTx s).close := rfl
theorem exec_dispatch : exec .dispatch s = (dispatch s).close := rfl
theorem exec_txSettle : exec .txSettle s = (txSettle s).close := rfl
theorem exec_arbLoop : exec .arbLoop s = (arbCycle s).close := rfl
theorem exec_unrecognized (cmd : Byte) : exec (.unrecognized cmd) s = (unrecognized cmd s).close := rfl
end

theorem driveDir_ok {s : State} (h : s.env.pinFails = false) (l : Bool) (md : Mode) : driveDir l md s = .ok () { s with
    arb := { s.arb with mode := md }
    pins := { s.pins with dir := l }
    env := { s.env with pin := s.env.pin.tail }
    trace := .pin .dir l :: s.trace } := by
  rw [driveDir, pinSet_ok h]; rfl

theorem driveDir_fatal {s : State} (h : s.env.pinFails = true) (l : Bool) (md : Mode) :
    driveDir l md s = .fatal .gpio { s with
      env := { s.env with pin := s.env.pin.tail }, trace := .fatal .gpio :: s.trace } := by
  rw [driveDir, pinSet_fatal h]; rfl

/-- Settles O42: the two endings of `driveDir`, at each of its two levels. -/
theorem directionIsSetWithTheMode : Obligations.DirectionIsSetWithTheMode := by
  intro s
  refine ⟨fun h => ?_, fun h i hi => ?_⟩
  · rw [exec_setRx, exec_setTx, setRx_eq, setTx_eq, driveDir_ok h, driveDir_ok h]
    exact ⟨rfl, rfl⟩
  · obtain rfl | rfl : i = .setRx ∨ i = .setTx := by simpa using hi
    · rw [exec_setRx, setRx_eq, driveDir_fatal h]; rfl
    · rw [exec_setTx, setTx_eq, driveDir_fatal h]; rfl

/-! ## `DISPATCH` (R225, R229) -/

/-- Every byte but the three commands (30_encoding.md R91; log 26). -/
theorem uplinkCmd_unrecognized {b : Byte} (hlo : b ≠ 0x6C) (hhi : b ≠ 0x68) (hcam : b ≠ 0x63) :
    uplinkCmd b = .unrecognized := by
  cases hc : uplinkCmd b with
  | sigLo => exact absurd ((uplinkCmd_sigLo_iff b).1 hc) hlo
  | sigHi => exact absurd ((uplinkCmd_sigHi_iff b).1 hc) hhi
  | camData => exact absurd ((uplinkCmd_camData_iff b).1 hc) hcam
  | unrecognized => rfl

section
variable {s : State}

theorem dispatch_sigLo (h : uplinkCmd s.arb.cmd = .sigLo) : dispatch s = sigLo s := by rw [dispatch, h]
theorem dispatch_sigHi (h : uplinkCmd s.arb.cmd = .sigHi) : dispatch s = sigHi s := by rw [dispatch, h]
theorem dispatch_camData (h : uplinkCmd s.arb.cmd = .camData) : dispatch s = camData s := by rw [dispatch, h]
theorem dispatch_unrecognized (h : uplinkCmd s.arb.cmd = .unrecognized) : dispatch s = unrecognized s.arb.cmd s := by
  rw [dispatch, h]

end

/-- Settles O43: each of the three commands selects its handler, and every other byte the answer of `UNRECOGNIZED`. -/
theorem dispatchOnTheWholeByte : Obligations.DispatchOnTheWholeByte := by
  intro s
  refine ⟨fun h => ?_, fun h => ?_, fun h => ?_, fun hlo hhi hcam => ?_, fun cmd => rfl⟩
  · exact congrArg Eff.close (dispatch_sigLo ((uplinkCmd_sigLo_iff _).2 h))
  · exact congrArg Eff.close (dispatch_sigHi ((uplinkCmd_sigHi_iff _).2 h))
  · exact congrArg Eff.close (dispatch_camData ((uplinkCmd_camData_iff _).2 h))
  · exact congrArg Eff.close (dispatch_unrecognized (uplinkCmd_unrecognized hlo hhi hcam))

/-! ## The response and the settle (R230, R231) -/

section
variable {s : State}

theorem writeResp_empty (h : s.arb.respLen = 0) : writeResp s = .ok () s := by
  rw [writeResp, if_neg (by omega)]

theorem writeResp_eq (h : s.arb.respLen ≠ 0) : writeResp s = upWrite (respBytes s) s := by
  rw [writeResp, if_pos (by omega)]

end

/-- Settles O44: the empty response makes no call; any other is one `UpWrite`, and the settle one `Sleep`. -/
theorem writeRespAndTxSettle : Obligations.WriteRespAndTxSettle := by
  intro s
  rw [exec_writeResp, exec_txSettle]
  refine ⟨fun h => ?_, fun h hm hw => ?_, fun h hm hw => ?_, fun h => ?_, fun h => ?_⟩
  · rw [writeResp_empty h, Eff.close_ok]
  · rw [writeResp_eq h, upWrite_ok hm hw]; rfl
  · rw [writeResp_eq h, upWrite_fatal hm hw]; rfl
  · rw [txSettle, sleep_ok h]; rfl
  · rw [txSettle, sleep_fatal h]; rfl

end Sys2Proof.Machine
end

section
/-! PROOFS. The family 46_arbiter.md, second part: the parts of the loop. `m.IsPart waits s` says what a part from `s` can end in;
of it follow what one pass makes of its parts (`close_andThen_eq_thenPart`), and what the step of a part's phase is where the part
returns (`step_of_part`) and where it halts (`step_of_halting_part`). -/

namespace Sys2Proof.Machine

/-! ## What a part of the loop ends in -/

/-- A part of the loop from `s`: it returns and the engine has not halted by it, raises `Fatal` with the arbiter's registers left
alone, stops, or, exactly if `waits`, waits where it stands; camera faults have been caught (45_camera_protocol.md R204). -/
def Eff.IsPart (waits : Prop) (s : State) : Eff Unit → Prop
  | .ok _ t => ¬ waits ∧ t.arb.halt = s.arb.halt
  | .fatal _ t => SameArbiter s t
  | .blocked t => waits ∧ t = s
  | .camFault _ _ => False
  | .stop _ => True

theorem Eff.IsPart.of_iff {m : Eff Unit} {waits waits' : Prop} {s : State} (hm : m.IsPart waits s) (h : waits ↔ waits') :
    m.IsPart waits' s := propext h ▸ hm

theorem cameraOnly.sameArbiter {s t : State} (h : cameraOnly s t) : SameArbiter s t :=
  ⟨⟨h.profile, by rw [h], by rw [h]⟩, by rw [h], by rw [h]⟩

section
variable (s : State)

theorem driveDir_isPart (l : Bool) (md : Mode) : (driveDir l md s).IsPart False s := by
  rcases pinSet_cases .dir l s with h | h <;> rw [driveDir, h]
  · exact ⟨not_false, rfl⟩
  · exact Answered.sameArbiter ⟨rfl, rfl⟩

theorem setRx_isPart : (setRx s).IsPart False s := driveDir_isPart s _ _
theorem setTx_isPart : (setTx s).IsPart False s := driveDir_isPart s _ _

theorem waitCmd_isPart : (waitCmd s).IsPart (s.env.up = []) s := by
  cases hm : s.arb.mode with
  | transmit => rw [waitCmd, upRead_transmit hm]; trivial
  | receive =>
    rcases upRead_cases hm with ⟨b, rest, hup, h⟩ | ⟨hup, h⟩ | ⟨rest, -, h⟩ <;> rw [waitCmd, h]
    · exact ⟨by simp [hup], rfl⟩
    · exact ⟨hup, rfl⟩
    · exact Answered.sameArbiter ⟨rfl, rfl⟩

theorem upWrite_isPart (bs : List Byte) : (upWrite bs s).IsPart False s := by
  cases hm : s.arb.mode with
  | receive => rw [upWrite_receive hm]; trivial
  | transmit =>
    cases hf : s.env.upWrFails
    · rw [upWrite_ok hm hf]; exact ⟨not_false, rfl⟩
    · rw [upWrite_fatal hm hf]; exact Answered.sameArbiter ⟨rfl, rfl⟩

theorem writeResp_isPart : (writeResp s).IsPart False s := by
  unfold writeResp
  split
  · exact upWrite_isPart s _
  · exact ⟨not_false, rfl⟩

theorem txSettle_isPart : (txSettle s).IsPart False s := by
  rcases sleep_cases s.profile.tTxSettle s with h | h <;> rw [txSettle, h]
  · exact ⟨not_false, rfl⟩
  · exact Answered.sameArbiter ⟨rfl, rfl⟩

theorem unrecognized_isPart (cmd : Byte) : (unrecognized cmd s).IsPart False s := ⟨not_false, rfl⟩

theorem signalCommand_isPart (freq : Bool) :
    ((signal freq s).andThen fun bs t => .ok () (loadResp bs t)).IsPart False s := by
  have hmakes := scan_makes (setFreq freq s)
  unfold signal
  cases hm : scan (setFreq freq s) with
  | ok a t =>
    rw [hm] at hmakes
    obtain ⟨-, rfl⟩ := hmakes
    exact ⟨not_false, rfl⟩
  | fatal c t =>
    rw [hm] at hmakes
    obtain ⟨made, e, r, -, -, -, -, rfl⟩ := hmakes
    exact (SameArbiter.refl s).update
  | camFault | blocked | stop => rw [hm] at hmakes; exact hmakes.elim

theorem camData_isPart : (camData s).IsPart False s := by
  obtain ⟨blk, t, hdata, -, ⟨hkept, -⟩, -⟩ := cameraData_reports s
  rw [camData, hdata]
  have hhalt : t.arb.halt = s.arb.halt := congrArg Arbiter.halt hkept.sameArbiter.arb
  exact ⟨not_false, hhalt⟩

theorem dispatch_isPart : (dispatch s).IsPart False s := by
  cases hc : uplinkCmd s.arb.cmd with
  | sigLo => rw [dispatch_sigLo hc]; exact signalCommand_isPart s false
  | sigHi => rw [dispatch_sigHi hc]; exact signalCommand_isPart s true
  | camData => rw [dispatch_camData hc]; exact camData_isPart s
  | unrecognized => rw [dispatch_unrecognized hc]; exact unrecognized_isPart s _

end

section
variable {m : Eff Unit} {waits : Prop} {s u : State} (hm : m.IsPart waits s) (hnext : m.close = .next u)
include hm hnext

theorem Eff.IsPart.eq_ok (hw : ¬ waits) (hu : u.arb.halt = false) : m = .ok () u := by
  cases m with
  | ok a t => cases hnext; rfl
  | fatal c t => cases hnext; exact absurd hu (by simp)
  | blocked t => exact absurd hm.1 hw
  | camFault => exact hm.elim
  | stop => cases hnext

theorem Eff.IsPart.eq_fatal (hs : s.arb.halt = false) (hu : u.arb.halt = true) :
    ∃ c t, m = .fatal c t ∧ SameArbiter s t ∧ u = takeFatal c t := by
  cases m with
  | ok a t => cases hnext; exact absurd (hu.symm.trans (hm.2.trans hs)) (by decide)
  | fatal c t => cases hnext; exact ⟨c, t, rfl, hm, rfl⟩
  | blocked t =>
    cases hnext
    rw [hm.2, hs] at hu
    cases hu
  | camFault => exact hm.elim
  | stop => cases hnext

end

/-! ## One pass, part by part (R221; log 13) -/

/-- A part and what comes after it, as one operation and as `thenPart` has it. -/
theorem close_andThen_eq_thenPart {q : ArbPh × Instr} {m : Eff Unit} {f : Unit → State → Eff Unit}
    {k : State → Host.Outcome State Fault Refusal} {s : State} (hexec : exec q.2 (setArbPh q.1 s) = m.close)
    (hm : m.IsPart (q.2 = .waitCmd ∧ s.env.up = []) (setArbPh q.1 s)) (hh : s.arb.halt = false)
    (hk : ∀ t, t.arb.halt = false → (f () t).close = k t) : (m.andThen f).close = thenPart q k s := by
  change exec q.2 { s with arb := { s.arb with ph := q.1 } } = m.close at hexec
  rw [thenPart, hexec]
  cases m with
  | ok a t =>
    obtain ⟨hgo, hhalt⟩ := hm
    have ht : t.arb.halt = false := hhalt.trans hh
    simpa [ht, hgo] using hk t ht
  | fatal c t => simp
  | blocked t => simp [hm.1]
  | camFault => exact hm.elim
  | stop => rfl

/-- From a state that has not halted, a pass of the loop is its six parts one after another. -/
theorem exec_arbLoop_eq_runParts {s : State} (hh : s.arb.halt = false) : exec .arbLoop s = runParts loopParts s := by
  rw [exec_arbLoop, arbCycle]
  refine close_andThen_eq_thenPart (exec_setRx _) ((setRx_isPart _).of_iff (by simp)) hh fun t ht => ?_
  refine close_andThen_eq_thenPart (exec_waitCmd _) ((waitCmd_isPart _).of_iff (by simp [setArbPh])) ht fun t ht => ?_
  refine close_andThen_eq_thenPart (exec_setTx _) ((setTx_isPart _).of_iff (by simp)) ht fun t ht => ?_
  refine close_andThen_eq_thenPart (exec_dispatch _) ((dispatch_isPart _).of_iff (by simp)) ht fun t ht => ?_
  refine close_andThen_eq_thenPart (exec_writeResp _) ((writeResp_isPart _).of_iff (by simp)) ht fun t ht => ?_
  exact close_andThen_eq_thenPart (exec_txSettle _) ((txSettle_isPart _).of_iff (by simp)) ht fun _ _ => rfl

/-! ## The step of a part's phase -/

section
variable {s : State}
theorem loopCall_setRx (h : s.arb.ph = .setRx) :
    loopCall s = (setRx s).andThen fun _ t => .ok () (setArbPh .waitCmd t) := by rw [loopCall, h]
theorem loopCall_waitCmd (h : s.arb.ph = .waitCmd) :
    loopCall s = (waitCmd s).andThen fun _ t => .ok () (setArbPh .setTx t) := by rw [loopCall, h]
theorem loopCall_setTx (h : s.arb.ph = .setTx) :
    loopCall s = (setTx s).andThen fun _ t => .ok () (dispatchEnter (setArbPh .dispatch t)) := by rw [loopCall, h]
theorem loopCall_dispatch (h : s.arb.ph = .dispatch) : loopCall s = stepHandler s := by rw [loopCall, h]
theorem loopCall_write (h : s.arb.ph = .write) :
    loopCall s = (writeResp s).andThen fun _ t => .ok () (setArbPh .settle t) := by rw [loopCall, h]
theorem loopCall_settle (h : s.arb.ph = .settle) :
    loopCall s = (txSettle s).andThen fun _ t => .ok () (setArbPh .setRx t) := by rw [loopCall, h]
end

section
variable {m : Eff Unit} {waits : Prop} {g : State → State} {s u : State} (hr : Ready s)
  (hdue : loopCall s = m.andThen fun _ t => .ok () (g t)) (hm : m.IsPart waits s) (hnext : m.close = .next u)
include hr hdue hm hnext

/-- Where the part returns, the step does it and moves on. -/
theorem step_of_part (hw : ¬ waits) (hu : u.arb.halt = false) : step s = .next (g u) := by
  rw [hr.step_eq, hdue, hm.eq_ok hnext hw hu]; rfl

/-- Where the part halts, the step ends in the same halt, or, in TRANSMIT, before the restoring `PinSet` (R232; log 35). -/
theorem step_of_halting_part (hu : u.arb.halt = true) : (s.arb.mode = .receive → step s = .next u)
    ∧ (s.arb.mode = .transmit →
      ∃ t c, step s = .next t ∧ t.stopping = some c ∧ t.arb = s.arb ∧ step t = .next u) := by
  obtain ⟨c, t, hfatal, hkeep, rfl⟩ := hm.eq_fatal hnext hr.2.1 hu
  have hstep : step s = .next (enterFatal c t) := by rw [hr.step_eq, hdue, hfatal]; rfl
  refine ⟨fun hmode => ?_, fun hmode => ⟨t.setStopping (some c), c, ?_, rfl, hkeep.arb, ?_⟩⟩
  · rw [hstep, enterFatal_of_receive c (by rw [hkeep.arb, hmode])]
  · rw [hstep, enterFatal_of_transmit c (by rw [hkeep.arb, hmode])]
  · obtain ⟨hrun, hh, hst⟩ := hkeep.ready hr
    rw [step_of_running (s := t.setStopping (some c)) hrun hh, callDue_of_stopping (c := c) rfl, closeStep_ok,
      leaveFatal_setStopping c hst]

end

/-! ## The handler (R225) -/

/-- The scanner's registers where the handler of a command begins. -/
def enteredScn (c : UplinkCmd) (scn : Scanner) : Scanner :=
  match c with
  | .sigLo => { scn with ph := .reset, half := false, freq := false }
  | .sigHi => { scn with ph := .reset, half := false, freq := true }
  | .camData | .unrecognized => scn

/-- The protocol's. -/
def enteredCcp (c : UplinkCmd) (connected : Bool) (ccp : Camera) : Camera :=
  match c with
  | .camData => { ccp with ph := if connected then .reqTx else .knockTx, blkValid := false }
  | .sigLo | .sigHi | .unrecognized => ccp

theorem dispatchEnter_eq (s : State) : dispatchEnter s = { s with
    scn := enteredScn (uplinkCmd s.arb.cmd) s.scn
    ccp := enteredCcp (uplinkCmd s.arb.cmd) s.connected s.ccp } := by
  unfold dispatchEnter
  cases uplinkCmd s.arb.cmd with
  | sigLo | sigHi | camData | unrecognized => rfl

/-- The steps from the handler's first point end where `DISPATCH` in one piece ends. -/
theorem reaches_dispatch {md : Mode} {s v : State} (hs : AtPhase .dispatch md s) (hnext : (dispatch s).close = .next v) :
    Reaches (dispatchEnter s) (if v.arb.halt then v else afterDispatch v) := by
  have hsteps := dispatch_stepped hs
  have hpart := dispatch_isPart s
  cases hm : dispatch s with
  | ok a t =>
    rw [hm] at hsteps hnext
    cases hnext
    obtain ⟨⟨⟨-, hhalt, -⟩, -⟩, hreach⟩ := hsteps
    rwa [if_neg (by simp [hhalt])]
  | fatal c t =>
    rw [hm] at hsteps hnext
    cases hnext
    rwa [if_pos (takeFatal_halt c t)]
  | blocked => rw [hm] at hpart; exact hpart.1.elim
  | camFault => rw [hm] at hpart; exact hpart.elim
  | stop => rw [hm] at hsteps; exact hsteps.elim

/-! ## The statement -/

theorem atPhase_of_setTx {s u : State} (hr : Ready s) (h : setTx s = .ok () u) :
    AtPhase .dispatch .transmit (setArbPh .dispatch u) := by
  have hcall := setTx_call False (s := s)
  rw [h] at hcall
  obtain ⟨hctx, harb, -⟩ := hcall
  exact ⟨(hctx.setArbPh .dispatch).ready hr (by rw [setArbPh_arb, harb]), rfl, by rw [setArbPh_arb, harb]⟩

/-- Settles O47: where a phase's part returns, `step_of_part` gives the step; where it halts, `step_of_halting_part`; and the steps
of a handler are those of `reaches_dispatch`. -/
theorem stepFollowsTheLoop : Obligations.StepFollowsTheLoop := by
  intro s u hrun hh
  refine ⟨fun c hc => ?_, fun hs hu => ?_, fun hs hu q hq hph hnext => ?_⟩
  · rw [step_of_running hrun hh, callDue_of_stopping hc]; rfl
  · have hr : Ready s := ⟨hrun, hh, hs⟩
    refine ⟨fun hph hnext => ?_, fun hph hup hnext => ?_, fun hph hm hup => ?_, fun hph hnext => ?_, fun hph hc hnext => ?_,
      fun hph hnext => ?_, fun hph hnext => ?_⟩
    · exact step_of_part hr (loopCall_setRx hph) (setRx_isPart s) hnext not_false hu
    · exact step_of_part hr (loopCall_waitCmd hph) (waitCmd_isPart s) hnext hup hu
    · rw [hr.step_eq, loopCall_waitCmd hph, waitCmd, upRead_silent hm hup]; rfl
    · have hstep := step_of_part hr (loopCall_setTx hph) (setTx_isPart s) hnext not_false hu
      have hat := atPhase_of_setTx hr ((setTx_isPart s).eq_ok hnext not_false hu)
      exact ⟨hstep.trans (congrArg _ (dispatchEnter_eq _)), fun v hv => Reaches.head hstep (reaches_dispatch hat hv)⟩
    · cases hnext
      rw [hr.step_eq, loopCall_dispatch hph, stepHandler, hc]; rfl
    · exact step_of_part hr (loopCall_write hph) (writeResp_isPart s) hnext not_false hu
    · exact step_of_part hr (loopCall_settle hph) (txSettle_isPart s) hnext not_false hu
  · have hr : Ready s := ⟨hrun, hh, hs⟩
    simp only [List.mem_cons, List.not_mem_nil, or_false] at hq
    obtain rfl | rfl | rfl | rfl | rfl := hq
    · exact step_of_halting_part hr (loopCall_setRx hph) (setRx_isPart s) hnext hu
    · exact step_of_halting_part hr (loopCall_waitCmd hph) (waitCmd_isPart s) hnext hu
    · exact step_of_halting_part hr (loopCall_setTx hph) (setTx_isPart s) hnext hu
    · exact step_of_halting_part hr (loopCall_write hph) (writeResp_isPart s) hnext hu
    · exact step_of_halting_part hr (loopCall_settle hph) (txSettle_isPart s) hnext hu

end Sys2Proof.Machine
end

section
/-! PROOFS. The family 46_arbiter.md, third part: the bus is half-duplex. A call of the loop makes an event that the mode allows
(`loopCall_usesBus`) and changes the mode in `A_SET_RX` and `A_SET_TX` only (`loopCall_mode`). -/

namespace Sys2Proof.Machine

/-! ## The event of a step -/

/-- What the mode of `s` allows a step to call (46_arbiter.md R220). -/
def BusUse (s : State) (e : Event) : Prop :=
  ((∃ b, e = .upRead b) → s.arb.mode = .receive)
  ∧ ((∃ bs, e = .upWrite bs) → s.arb.mode = .transmit)
  ∧ (s.arb.ph ≠ .setRx → s.arb.mode = .receive → (∃ b, e = .upRead b) ∨ (∃ l, e = .pin .dir l) ∨ ∃ c, e = .fatal c)

section
variable {s : State}

theorem busUse_fatal (c : FatalCause) : BusUse s (.fatal c) :=
  ⟨by simp, by simp, fun _ _ => .inr (.inr ⟨c, rfl⟩)⟩

theorem busUse_dir (l : Bool) : BusUse s (.pin .dir l) :=
  ⟨by simp, by simp, fun _ _ => .inr (.inl ⟨l, rfl⟩)⟩

theorem busUse_upRead (b : Byte) (hm : s.arb.mode = .receive) : BusUse s (.upRead b) :=
  ⟨fun _ => hm, by simp, fun _ _ => .inl ⟨b, rfl⟩⟩

/-- In TRANSMIT everything but a read is allowed. -/
theorem busUse_of_transmit {e : Event} (hm : s.arb.mode = .transmit) (he : ∀ b, e ≠ .upRead b) : BusUse s e :=
  ⟨fun ⟨b, hb⟩ => absurd hb (he b), fun _ => hm, fun _ hrx => absurd (hm.symm.trans hrx) nofun⟩

/-- One call off the uplink and the direction pin, in TRANSMIT. -/
theorem usesBus_of_offUplink {m : Eff Unit} (hm : s.arb.mode = .transmit) (hone : m.OneCall s) (hoff : m.Ends (OffUplink s)) :
    m.Returns fun _ t => ∃ e, t.trace = e :: s.trace ∧ BusUse s e := by
  cases m with
  | ok a t =>
    obtain ⟨⟨e, he⟩, -⟩ := hone
    obtain ⟨es, hes, hall⟩ := hoff
    obtain rfl : es = [e] := List.append_cancel_right (hes.symm.trans he)
    refine ⟨e, he, busUse_of_transmit hm ?_⟩
    rintro b rfl
    exact absurd (hall _ (List.mem_singleton_self _)) (by simp [Event.isUplink])
  | camFault | fatal | blocked | stop => trivial

/-- A call of the loop that returns has made an event that the mode allows. -/
theorem loopCall_usesBus (hi : Inv s) : (loopCall s).Returns fun _ t => ∃ e, t.trace = e :: s.trace ∧ BusUse s e := by
  cases hph : s.arb.ph with
  | setRx =>
    rw [loopCall_setRx hph]
    exact (setRx_returns s).andThen fun _ t htr => ⟨_, htr, busUse_dir _⟩
  | waitCmd =>
    obtain ⟨hmode, -⟩ := hi.wait_receives hph
    rw [loopCall_waitCmd hph]
    exact (waitCmd_returns s hmode).andThen fun _ t ⟨b, htr⟩ => ⟨_, htr, busUse_upRead b hmode⟩
  | setTx =>
    rw [loopCall_setTx hph]
    refine (setTx_returns s).andThen fun _ t htr => ?_
    obtain ⟨henter, -⟩ := dispatchEnter_updated (setArbPh .dispatch t)
    exact ⟨_, henter.trans htr, busUse_dir _⟩
  | dispatch =>
    obtain ⟨⟨hmode, -⟩, hpt⟩ := hi.dispatch_transmits hph
    rw [loopCall_dispatch hph]
    exact usesBus_of_offUplink hmode (stepHandler_oneCall hpt) (stepHandler_offUplink hpt)
  | write =>
    obtain ⟨⟨hmode, -⟩, hlen, hcmd⟩ := hi.write_transmits hph
    rw [loopCall_write hph]
    exact (writeResp_returns s hmode (by rw [hlen]; exact respSize_pos hcmd)).andThen fun _ t htr =>
      ⟨_, htr, busUse_of_transmit hmode nofun⟩
  | settle =>
    obtain ⟨⟨hmode, -⟩, -⟩ := hi.settle_transmits hph
    rw [loopCall_settle hph]
    exact (usesBus_of_offUplink hmode (sleep_oneCall _ s) (sleep_offUplink s _)).andThen fun _ _ h => h
  | halted => simp [loopCall, hph, Eff.Returns]

/-! ## The mode -/

/-- A call of the loop keeps the mode, or is one of the two that set it. -/
def ModeWent (s t : State) : Prop :=
  t.arb.mode = s.arb.mode
  ∨ (s.arb.ph = .setRx ∧ t.arb.mode = .receive)
  ∨ (s.arb.ph = .setTx ∧ s.arb.mode = .receive ∧ t.arb.mode = .transmit)

theorem HandlerWent.mode {p : State → Prop} {t : State} (h : HandlerWent p s t) : t.arb.mode = s.arb.mode := by
  obtain ⟨hkeep, -⟩ | ⟨bs, u, hkeep, -, rfl⟩ := h
  · rw [hkeep.arb]
  · rw [handlerReturn_mode, hkeep.arb]

theorem loopCall_mode (hw : s.profile.wf = true) (hi : Inv s) : (loopCall s).Returns fun _ => ModeWent s := by
  cases hph : s.arb.ph with
  | setRx =>
    rw [loopCall_setRx hph]
    exact (setRx_call False).returns.andThen fun _ t ⟨_, harb, _⟩ => .inr (.inl ⟨hph, by rw [setArbPh_arb, harb]⟩)
  | waitCmd =>
    obtain ⟨hmode, -⟩ := hi.wait_receives hph
    rw [loopCall_waitCmd hph]
    exact (waitCmd_call False hmode).returns.andThen fun _ t ⟨_, ⟨_, harb⟩, _⟩ =>
      .inl (by rw [setArbPh_arb, harb])
  | setTx =>
    obtain ⟨hmode, -⟩ := hi.set_tx_receives hph
    rw [loopCall_setTx hph]
    refine (setTx_call False).returns.andThen fun _ t ⟨_, harb, _⟩ => .inr (.inr ⟨hph, hmode, ?_⟩)
    rw [(dispatchEnter_sameArbiter _).arb, setArbPh_arb, harb]
  | dispatch =>
    obtain ⟨-, hpt⟩ := hi.dispatch_transmits hph
    obtain ⟨-, -, -, -, hmax, -⟩ := (profile_wf_iff s.profile).1 hw
    rw [loopCall_dispatch hph]
    exact (stepHandler_call hmax hpt).returns.mono fun _ _ h => .inl h.mode
  | write =>
    obtain ⟨⟨hmode, -⟩, -⟩ := hi.write_transmits hph
    rw [loopCall_write hph]
    exact (writeResp_call False hmode).returns.andThen fun _ t hkeep =>
      .inl (by rw [setArbPh_arb, hkeep.arb])
  | settle =>
    rw [loopCall_settle hph]
    exact (txSettle_call False).returns.andThen fun _ t hkeep => .inl (by rw [setArbPh_arb, hkeep.arb])
  | halted => simp [loopCall, hph, Eff.Returns]

end

/-! ## The step -/

theorem enterFatal_trace (c : FatalCause) (s : State) : (enterFatal c s).trace = s.trace := by
  cases hm : s.arb.mode with
  | receive => rw [enterFatal_of_receive c hm, takeFatal_of_receive c hm]; rfl
  | transmit => rw [enterFatal_of_transmit c hm]; rfl

/-- In TRANSMIT the mode is written with the halt, after the restoring `PinSet` (46_arbiter.md R232; log 35). -/
theorem enterFatal_mode (c : FatalCause) (s : State) : (enterFatal c s).arb.mode = s.arb.mode := by
  cases hm : s.arb.mode with
  | receive => rw [enterFatal_of_receive c hm, takeFatal_mode]
  | transmit => rw [enterFatal_of_transmit c hm]; exact hm

/-- What a step adds to the trace is the one event that is known. -/
theorem busUse_of_trace {s t : State} {e : Event} (he : t.trace = e :: s.trace) (huse : BusUse s e) :
    ∀ e', t.trace = e' :: s.trace → BusUse s e' := by
  intro e' he'
  obtain ⟨rfl, -⟩ := List.cons.inj (he.symm.trans he')
  exact huse

/-- Where the mode changes, the loop has set it. -/
theorem ModeWent.of_ne {s t : State} (h : ModeWent s t) (hne : t.arb.mode ≠ s.arb.mode) :
    (s.arb.mode = .transmit ∧ t.arb.mode = .receive ∧ s.arb.ph = .setRx)
      ∨ (s.arb.mode = .receive ∧ t.arb.mode = .transmit ∧ s.arb.ph = .setTx) := by
  obtain ⟨hph, ht⟩ | ⟨hph, hs, ht⟩ := h.resolve_left hne
  · cases hs : s.arb.mode with
    | receive => exact absurd (ht.trans hs.symm) hne
    | transmit => exact .inl ⟨rfl, ht, hph⟩
  · exact .inr ⟨hs, ht, hph⟩

/-- Settles O55: a `FATAL_STOP` under way makes the restoring `PinSet` and ends in RECEIVE; a call of the loop that returns is that
of `loopCall_usesBus` and `loopCall_mode`, and one that fails leaves the mode. -/
theorem halfDuplex : Obligations.HalfDuplex := by
  intro s t hr hi hstep
  obtain ⟨hh, hw, ⟨c, hs, rfl⟩ | ⟨hs, hclose⟩⟩ := step_cases hr.1 hstep
  · obtain ⟨hmode, -⟩ := hi.stopping_transmits (by simp [hs])
    obtain ⟨e, he, hev⟩ := leaveFatal_trace c hmode
    refine ⟨busUse_of_trace he ?_, fun _ => .inl ⟨hmode, takeFatal_mode _ _, .inr ⟨by simp [hs], takeFatal_halt _ _⟩⟩⟩
    obtain rfl | rfl := hev
    · exact busUse_dir _
    · exact busUse_fatal _
  · have hone := loopCall_oneCall hi hh
    have huse := loopCall_usesBus hi
    have hmode := loopCall_mode hw hi
    cases hm : loopCall s with
    | ok a u =>
      rw [hm] at huse hmode hclose
      cases hclose
      obtain ⟨e, he, huse⟩ := huse
      exact ⟨busUse_of_trace he huse, fun hne => (ModeWent.of_ne hmode hne).imp
        (fun ⟨hs, ht, hph⟩ => ⟨hs, ht, .inl hph⟩) id⟩
    | fatal c u =>
      rw [hm] at hone hclose
      cases hclose
      obtain ⟨htr, -, harb⟩ := hone
      refine ⟨busUse_of_trace ((enterFatal_trace c u).trans htr) (busUse_fatal c), fun hne => absurd ?_ hne⟩
      rw [enterFatal_mode, harb]
    | blocked u =>
      rw [hm] at hone hclose
      cases hclose
      obtain ⟨-, -, rfl⟩ := hone
      exact ⟨fun e he => absurd he (by simp), fun hne => absurd rfl hne⟩
    | camFault k u =>
      have hcall := loopCall_call hw hi hh hs
      rw [hm] at hcall
      exact hcall.1.elim
    | stop => rw [hm] at hone; exact hone.elim

end Sys2Proof.Machine
end

section
/-! PROOFS. The family 46_arbiter.md, fourth part: a pass of the loop in which no call of the arbiter or of a scan fails. It turns the
bus round (`turned`), a handler responds (`Responds`), and the response is written (`responded`). -/

namespace Sys2Proof.Machine

/-! ## What a handler's response leaves alone -/

/-- A handler has made `events` since `s`, and returns the response `bs` in the state `u` (46_arbiter.md R225 to R229, R234). -/
structure Responds (s : State) (events : List Event) (bs : List Byte) (u : State) : Prop where
  kept : SameArbiter s u
  ret : u.ret = s.ret
  up : u.env.up = s.env.up
  upWr : u.env.upWr = s.env.upWr
  clk : u.env.clk = s.env.clk ∨ u.env.clk = s.env.clk.drop 23
  trace : u.trace = events.reverse ++ s.trace
  off : ∀ e ∈ events, e.isUplink = false
  size : bs.length = respSize s.profile s.arb.cmd
  diag : uplinkCmd s.arb.cmd = .unrecognized → events = [.diag (.unrecognized s.arb.cmd)]
  camera : uplinkCmd s.arb.cmd ≠ .camData →
    u.connected = s.connected ∧ u.frm = s.frm ∧ u.flu = s.flu ∧ u.ccp = s.ccp
  scanner : uplinkCmd s.arb.cmd = .camData ∨ uplinkCmd s.arb.cmd = .unrecognized →
    u.scn = s.scn ∧ u.pins.muxReset = s.pins.muxReset ∧ u.pins.muxAdv = s.pins.muxAdv ∧ u.fresh = s.fresh

/-- A scan calls its own pins, the clock and the analog input (41_scanner.md R139). -/
theorem scanEvents_offUplink (P : Profile) (v : Nat → Sample) : ∀ e ∈ scanEvents P v, e.isUplink = false := by
  have hall : (scanEvents P v).all (fun e => !e.isUplink) = true := rfl
  simpa using hall

theorem Event.isUplink_of_isCamera {e : Event} (h : e.isCamera = true) : e.isUplink = false := by
  cases e with
  | camRead | camWrite | camFault => rfl
  | upRead | upWrite | pin | analog | sleep | diag | fatal => cases h

section
variable {s : State}

/-- The report of a calm scan (R226, R227). -/
theorem signal_responds (freq : Bool) (hcmd : uplinkCmd s.arb.cmd = .sigLo ∨ uplinkCmd s.arb.cmd = .sigHi)
    (hcalm : s.env.scanCalm) : ∃ events bs u, signal freq s = .ok bs u ∧ Responds s events bs u := by
  refine ⟨scanEvents s.profile (sampleAt (setFreq freq s)), _, _, (signal_of_calm freq hcalm).trans (select_eq ..), ?_⟩
  exact {
    kept := (SameArbiter.refl s).update
    ret := rfl
    up := rfl
    upWr := rfl
    clk := .inr rfl
    trace := rfl
    off := scanEvents_offUplink _ _
    size := (signalReportBytes_length _ _ _ _).trans (respSize_of_scan hcmd).symm
    diag := fun h => by rcases hcmd with hc | hc <;> exact absurd (hc.symm.trans h) nofun
    camera := fun _ => ⟨rfl, rfl, rfl, rfl⟩
    scanner := fun h => by rcases hcmd with hc | hc <;> simp [hc] at h }

/-- The report of a camera command, whatever the camera does (R228). -/
theorem cameraData_responds (hcmd : uplinkCmd s.arb.cmd = .camData) :
    ∃ events bs u, cameraData s = .ok bs u ∧ Responds s events bs u := by
  obtain ⟨blk, u, hdata, -, ⟨hkept, es, htr, -, hes⟩, -⟩ := cameraData_reports s
  refine ⟨es.reverse, _, u, hdata, ?_⟩
  exact {
    kept := hkept.sameArbiter
    ret := hkept.ret
    up := by rw [hkept]
    upWr := by rw [hkept]
    clk := .inl (by rw [hkept])
    trace := by rw [List.reverse_reverse, htr]
    off := fun e he => Event.isUplink_of_isCamera (hes e (List.mem_reverse.1 he)).1
    size := (blockReportBytes_length _ _).trans (respSize_of_camData hcmd).symm
    diag := fun h => absurd (hcmd.symm.trans h) nofun
    camera := fun h => absurd hcmd h
    scanner := fun _ => by rw [hkept]; exact ⟨rfl, rfl, rfl, rfl⟩ }

/-- The empty response of any other byte (R229). -/
theorem unrecognized_responds (hcmd : uplinkCmd s.arb.cmd = .unrecognized) :
    Responds s [.diag (.unrecognized s.arb.cmd)] [] (s.log (.diag (.unrecognized s.arb.cmd))) where
  kept := (SameArbiter.refl s).update
  ret := rfl
  up := rfl
  upWr := rfl
  clk := .inl rfl
  trace := rfl
  off := by simp [Event.isUplink]
  size := by simp [respSize, hcmd]
  diag _ := rfl
  camera _ := ⟨rfl, rfl, rfl, rfl⟩
  scanner _ := ⟨rfl, rfl, rfl, rfl⟩

/-- The handler of every command responds, and the response is loaded (R225). -/
theorem dispatch_responds (hcalm : s.env.scanCalm) :
    ∃ events bs u, dispatch s = .ok () (loadResp bs u) ∧ Responds s events bs u := by
  cases hc : uplinkCmd s.arb.cmd with
  | sigLo =>
    obtain ⟨events, bs, u, hu, h⟩ := signal_responds false (.inl hc) hcalm
    exact ⟨events, bs, u, by rw [dispatch_sigLo hc, sigLo, hu]; rfl, h⟩
  | sigHi =>
    obtain ⟨events, bs, u, hu, h⟩ := signal_responds true (.inr hc) hcalm
    exact ⟨events, bs, u, by rw [dispatch_sigHi hc, sigHi, hu]; rfl, h⟩
  | camData =>
    obtain ⟨events, bs, u, hu, h⟩ := cameraData_responds hc
    exact ⟨events, bs, u, by rw [dispatch_camData hc, camData, hu]; rfl, h⟩
  | unrecognized => exact ⟨_, [], s.log _, dispatch_unrecognized hc, unrecognized_responds hc⟩

end

/-! ## Answers that do not fail -/

/-- The first answer, and those behind it. -/
theorem clear.uncons {n : Nat} {l : List Bool} (h : clear (n + 1) l) : firstRaises l = false ∧ clear n l.tail := by
  cases l with
  | nil => exact ⟨rfl, by simp [clear]⟩
  | cons b l => simpa [clear, firstRaises] using h

/-- The sleeps of a scan may come before the settle, or not. -/
theorem Responds.clkFails {s u : State} {events : List Event} {bs : List Byte} (h : Responds s events bs u)
    (hclk : clear 24 s.env.clk) : u.env.clkFails = false := by
  obtain hsame | hscan := h.clk
  · rw [Env.clkFails, hsame]; exact hclk.uncons.1
  · rw [Env.clkFails, hscan]; exact ((clear_succ_iff 23 _).1 hclk).2

/-! ## The pass -/

/-- After the command byte `b` and the turn to TRANSMIT, where `DISPATCH` begins (R222 to R224). -/
def turned (b : Byte) (rest : List UpAnswer) (s : State) : State :=
  { s with
    arb := { s.arb with ph := .dispatch, mode := .transmit, cmd := b }
    pins := { s.pins with dir := s.profile.dirTxLevel }
    env := { s.env with up := rest, pin := s.env.pin.tail.tail }
    trace := .pin .dir s.profile.dirTxLevel :: .upRead b :: .pin .dir (!s.profile.dirTxLevel) :: s.trace }

/-- The end of a pass: the response, the settle, and the top of the loop again (R230, R231). -/
def respond (s : State) : Eff Unit :=
  (writeResp (setArbPh .write s)).andThen fun _ t =>
    (txSettle (setArbPh .settle t)).andThen fun _ u => .ok () (setArbPh .setRx u)

theorem Eff.andThen_of_ok {α β : Type} {m : Eff α} {a : α} {s : State} (h : m = .ok a s) (f : α → State → Eff β) :
    m.andThen f = f a s := by rw [h, Eff.andThen_ok]

theorem waitCmd_ok {s : State} {b : Byte} {rest : List UpAnswer} (hm : s.arb.mode = .receive)
    (hup : s.env.up = .byte b :: rest) : waitCmd s = .ok () { s with
      arb := { s.arb with cmd := b }, env := { s.env with up := rest }, trace := .upRead b :: s.trace } := by
  rw [waitCmd, upRead_byte hm hup]; rfl

theorem txSettle_ok {s : State} (h : s.env.clkFails = false) : txSettle s = .ok () { s with
    env := { s.env with clk := s.env.clk.tail }, trace := .sleep s.profile.tTxSettle :: s.trace } := by
  rw [txSettle, sleep_ok h]; rfl

theorem arbCycle_of_byte {s : State} {b : Byte} {rest : List UpAnswer} (hpin : clear 2 s.env.pin)
    (hup : s.env.up = .byte b :: rest) : arbCycle s = (dispatch (turned b rest s)).andThen fun _ t => respond t := by
  obtain ⟨hfirst, hpin⟩ := hpin.uncons
  obtain ⟨hsecond, -⟩ := hpin.uncons
  refine (Eff.andThen_of_ok (driveDir_ok (s := setArbPh .setRx s) hfirst _ _) _).trans ?_
  refine (Eff.andThen_of_ok (waitCmd_ok (by rfl) (by exact hup)) _).trans ?_
  exact Eff.andThen_of_ok (driveDir_ok (by exact hsecond) _ _) _

/-- After the response, if there is one, and the settle. -/
def responded (s : State) : State :=
  { s with
    arb := { s.arb with ph := .setRx }
    env := { s.env with
      upWr := if s.arb.respLen = 0 then s.env.upWr else s.env.upWr.tail
      clk := s.env.clk.tail }
    trace := .sleep s.profile.tTxSettle
      :: ((if s.arb.respLen = 0 then [] else [.upWrite (respBytes s)]) ++ s.trace) }

theorem respond_ok {s : State} (hm : s.arb.mode = .transmit) (hw : s.env.upWrFails = false) (hclk : s.env.clkFails = false) :
    respond s = .ok () (responded s) := by
  unfold responded
  by_cases hlen : s.arb.respLen = 0
  · rw [if_pos hlen, if_pos hlen]
    refine (Eff.andThen_of_ok (writeResp_empty (s := setArbPh .write s) hlen) _).trans ?_
    exact Eff.andThen_of_ok (txSettle_ok (by exact hclk)) _
  · rw [if_neg hlen, if_neg hlen]
    refine (Eff.andThen_of_ok ((writeResp_eq (s := setArbPh .write s) hlen).trans (upWrite_ok hm hw)) _).trans ?_
    exact Eff.andThen_of_ok (txSettle_ok (by exact hclk)) _

theorem respSize_le (P : Profile) (cmd : Byte) : respSize P cmd ≤ 9 := by
  unfold respSize
  cases uplinkCmd cmd with
  | sigLo | sigHi | camData => dsimp only; split <;> decide
  | unrecognized => exact Nat.zero_le 9

/-- A calm pass with a command byte ready: a handler responds, and the response is written. -/
theorem arbCycle_of_calm {s : State} {b : Byte} {rest : List UpAnswer} (hcalm : s.env.cycleCalm)
    (hup : s.env.up = .byte b :: rest) : ∃ events bs u,
      arbCycle s = .ok () (responded (loadResp bs u)) ∧ Responds (turned b rest s) events bs u := by
  obtain ⟨hpin, hclk, hwr, hadc⟩ := hcalm
  have hpin2 : clear 2 s.env.pin := forall_mem_take_mono (by decide) hpin
  have hscan : (turned b rest s).env.scanCalm :=
    ⟨hpin.uncons.2.uncons.2, forall_mem_take_mono (by decide) hclk, hadc⟩
  obtain ⟨events, bs, u, hdisp, hresp⟩ := dispatch_responds hscan
  refine ⟨events, bs, u, ?_, hresp⟩
  have hmode : (loadResp bs u).arb.mode = .transmit := congrArg Arbiter.mode hresp.kept.arb
  have hw : (loadResp bs u).env.upWrFails = false := by
    show firstRaises u.env.upWr = false
    rw [hresp.upWr]
    exact hwr.uncons.1
  rw [arbCycle_of_byte hpin2 hup, hdisp, Eff.andThen_ok, respond_ok hmode hw (hresp.clkFails hclk)]

/-- The response in `RESP` is the handler's. -/
theorem Responds.respBytes_loadResp {s u : State} {events : List Event} {bs : List Byte} (h : Responds s events bs u) :
    respBytes (loadResp bs u) = bs :=
  firstBytes_writeFrom u.arb.resp bs (h.size.trans_le (respSize_le _ _))

/-- The events of the pass in call order. -/
theorem Responds.events_responded {s u : State} {b : Byte} {rest : List UpAnswer} {events : List Event} {bs : List Byte}
    (h : Responds (turned b rest s) events bs u) : (responded (loadResp bs u)).events
      = s.events ++ [.pin .dir (!s.profile.dirTxLevel), .upRead b, .pin .dir s.profile.dirTxLevel]
        ++ events ++ (if bs = [] then [] else [.upWrite bs]) ++ [.sleep s.profile.tTxSettle] := by
  have htrace : (responded (loadResp bs u)).trace = .sleep u.profile.tTxSettle
      :: ((if bs.length = 0 then [] else [.upWrite (respBytes (loadResp bs u))]) ++ u.trace) := rfl
  have hprofile : u.profile = s.profile := h.kept.profile
  rw [State.events, htrace, h.respBytes_loadResp, h.trace, hprofile]
  cases bs <;> simp [State.events, turned]

/-- Settles O45: the parts are those of `exec_arbLoop_eq_runParts`; in a calm pass the handler's response is written. -/
theorem cycleCompletes : Obligations.CycleCompletes := by
  refine ⟨fun s hh => exec_arbLoop_eq_runParts hh, fun s b rest hcalm hup => ?_⟩
  obtain ⟨events, bs, u, hcycle, h⟩ := arbCycle_of_calm hcalm hup
  have harb : u.arb = (turned b rest s).arb := h.kept.arb
  have hhalt : u.arb.halt = s.arb.halt := by rw [harb]; rfl
  have hcause : u.arb.haltCause = s.arb.haltCause := by rw [harb]; rfl
  exact ⟨responded (loadResp bs u), events, bs, by rw [exec_arbLoop, hcycle]; rfl, h.events_responded, h.off, h.size, h.diag,
    rfl, congrArg Arbiter.mode harb, h.kept.dir, congrArg Arbiter.cmd harb, rfl, h.respBytes_loadResp, hhalt, hcause, h.up,
    h.kept.profile, h.ret, h.kept.call, h.kept.stopping, h.camera, h.scanner⟩

end Sys2Proof.Machine
end
